-- ==== Sys2Proof/Word.lean ====
section
/-! DEFINITION. The two word types of the block (R10, R50, R87). -/

namespace Sys2Proof

/-- A byte: an unsigned integer in 0..255, bit 0 the least significant (R10). -/
abbrev Byte := BitVec 8

/-- A 32-bit unsigned operand or status word (R36, R87). -/
abbrev Word := BitVec 32

end Sys2Proof
end

