-- ==== Sys2Proof/Syntax.lean ====
section
/-! DEFINITION. The commands, sequencer steps and datapath functions of LUMA-CMD-1, one constructor per row of the
opcode map (R86), with the operands R87 and the rules of 40_datapath.md give them; and the command word: an opcode
and its operand record (R85, R90). -/

namespace Sys2Proof

/-- The latch pin identifier or the transport handle: opaque, with a validity bit (R87). -/
structure Handle where
  id    : Nat := 0
  valid : Bool := false
deriving DecidableEq, Repr

/-- The transport's answer to a transfer (R87, R125, R126). -/
inductive Answer where
  | ok
  | err
deriving DecidableEq, Repr, Inhabited

/-- The opcodes of R86. The first eight are host commands, the next eight sequencer steps, the last five datapath
functions. -/
inductive Instr where
  /-- R151, `probe(config)`. -/
  | attach (w h : Word) (bpc : Byte) (pin xport : Handle)
  /-- R153, `remove(handle)`. -/
  | detach
  /-- R154, the surface write with its write hook. -/
  | swrite (off : Word) (bs : List Byte)
  /-- R155, the surface read. -/
  | sread (off n : Word)
  /-- R156, a one-byte store through a mapping of the surface. -/
  | mstore (off : Word) (v : Byte)
  /-- R157, `request_flush()`. -/
  | reqfl
  /-- R158, read the status record. -/
  | status
  /-- R159, debug read of the transmit frame. -/
  | fread (off n : Word)
  /-- R121, start a flush. -/
  | acq
  /-- R123, encode the frame. -/
  | enc
  /-- R124, hand the frame to the transport. -/
  | xfer
  /-- R125 (`ok`) and R126 (`err`), the transport's completion. -/
  | xdone (r : Answer)
  /-- R127, drive the latch low. -/
  | llow
  /-- R128, drive the latch high. -/
  | lhigh
  /-- R129, end the flush. -/
  | rel
  /-- R130, complete a detach. -/
  | dfin
  /-- R100, RGB to gray. -/
  | luma (r g b : Byte)
  /-- R102, gray to on/off bit. -/
  | thresh (gray : Byte)
  /-- R103, eight bits to one data byte, `b0` the bit of pixel `8k`. -/
  | pack8 (b0 b1 b2 b3 b4 b5 b6 b7 : Bool)
  /-- R104, line index to line-address byte. -/
  | laddr (y : Byte)
  /-- R105, build the frame's fixed bytes. -/
  | frameinit (w h : Word)
deriving DecidableEq, Repr

/-- The class `op[7:4]` selects (R85). -/
inductive OpClass where
  | hcmd
  | uop
  | func
deriving DecidableEq, Repr

/-- The operand record that travels with an opcode (R85, R87): every named operand of every opcode. A decoder takes
the operands its opcode defines and leaves the others (R90). DESIGN CHOICE (log 1): the fields an opcode does not
define stand at their zero; safe, since no rule reads them. -/
structure Operands where
  w     : Word := 0
  h     : Word := 0
  bpc   : Byte := 0
  pin   : Handle := {}
  xport : Handle := {}
  off   : Word := 0
  n     : Word := 0
  v     : Byte := 0
  bs    : List Byte := []
  r     : Answer := .ok
  red   : Byte := 0
  green : Byte := 0
  blue  : Byte := 0
  gray  : Byte := 0
  y     : Byte := 0
  b0    : Bool := false
  b1    : Bool := false
  b2    : Bool := false
  b3    : Bool := false
  b4    : Bool := false
  b5    : Bool := false
  b6    : Bool := false
  b7    : Bool := false
deriving DecidableEq, Repr

/-- A command word: the 8-bit opcode and its operand record (R85). -/
structure CmdWord where
  op   : Byte
  args : Operands := {}
deriving DecidableEq, Repr

/-- Why a command word is no instruction: its opcode is not listed in R86 (R88, R89). -/
inductive DecodeError where
  | reserved (op : Byte)
deriving DecidableEq, Repr

end Sys2Proof
end

