-- ==== Sys2Proof/Config.lean ====
section
/-! DEFINITION. The parameters of R8 the source leaves OPEN, and the draws, as constants with no body: nothing can be
proved of their values. The draws are functions of an instance's own draw counter, the same functions for every instance:
DESIGN CHOICE, log 30, unsafe for a claim that compares two instances. The parameters the source fixes stand here with theirs. -/

namespace Sys2Proof

/-- `THRESHOLD` (R8, R102). -/
def Config.threshold : Nat := 128

/-- `BPP`, bytes per surface pixel (R8). -/
def Config.bpp : Nat := 3

/-- The width of the reference panel (R3, R8). -/
def Config.refWidth : Nat := 128

/-- The height of the reference panel (R3, R8). -/
def Config.refHeight : Nat := 128

/-- `CFG_BYTE`, frame byte 0: OPEN (R8, D4; DESIGN CHOICE, log 10, safe). One value for every instance:
DESIGN CHOICE, log 29, unsafe. -/
opaque Config.cfgByte : Byte

/-- `TRAILER_BYTE`, the last byte of each frame line: OPEN (R8, D5; DESIGN CHOICE, log 10, safe). One value
for every instance: DESIGN CHOICE, log 29, unsafe. -/
opaque Config.trailerByte : Byte

/-- `TERM_BYTE`, the last frame byte: OPEN (R8, D6; DESIGN CHOICE, log 10, safe). One value for every instance:
DESIGN CHOICE, log 29, unsafe. -/
opaque Config.termByte : Byte

/-- `FLUSH_MIN_INTERVAL`: OPEN, timing only, no rule reads it (R8, R222; DESIGN CHOICE, log 11, safe). -/
opaque Config.flushMinInterval : Nat

/-- `LATCH_LOW_HOLD`: OPEN, timing only, no rule reads it (R8, R222; DESIGN CHOICE, log 11, safe). -/
opaque Config.latchLowHold : Nat

/-- `LATCH_HIGH_HOLD`: OPEN, timing only, no rule reads it (R8, R222; DESIGN CHOICE, log 11, safe). -/
opaque Config.latchHighHold : Nat

/-- `WIRE_BIT_ORDER`, true for most-significant bit first: OPEN, outside the block (R8, R59, D17; DESIGN CHOICE, log 11, safe). -/
opaque Config.wireMsbFirst : Bool

/-- `alloc_oracle`: a free value for draw number `k` (R8, R151; DESIGN CHOICE, log 6, safe). -/
opaque Config.allocOracle (k : Nat) : Bool

/-- The MSTORE hook: a free value for draw number `k` (R156, D21; DESIGN CHOICE, log 7, safe). -/
opaque Config.hookOracle (k : Nat) : Bool

/-- Which candidate ENC reads at address `a`: a free value for draw number `k`, one per address (R64; DESIGN CHOICE, log 8, safe). -/
opaque Config.raceOracle (k a : Nat) : Nat

/-- `xfer_oracle`: the transport's answer for draw number `k`, or `none` for no answer at all (R8, R131; DESIGN CHOICE, log 9, safe). -/
opaque Config.xferOracle (k : Nat) : Option Answer

/-- LADDR of a line above 254, where R104 gives no value: a free value (DESIGN CHOICE, log 12, safe). -/
opaque Config.lineAddrBeyond (y : Nat) : Byte

end Sys2Proof
end

