-- ==== Sys2Proof/WellFormed.lean ====
section
/-! DEFINITION. Which instructions have operands inside the domains the spec states for them. Execution does not rest on
this: an ill-formed instruction still has the meaning its rule gives it (an error, a REFUSE, or a free value). -/

namespace Sys2Proof

/-- The geometry ATTACH admits (R8, R152). -/
def geometryOk (w h : Nat) : Bool :=
  decide (8 ≤ w) && decide (w % 8 = 0) && decide (1 ≤ h) && decide (h ≤ 255)

/-- The operands lie in the domains R8, R61, R81, R87, R102, R104 and R105 state. -/
def Instr.wellFormed : Instr → Bool
  | .attach w h bpc _ _ => geometryOk w.toNat h.toNat && decide (bpc = 8)
  | .swrite _ bs => decide (1 ≤ bs.length)
  | .sread _ n => decide (1 ≤ n.toNat)
  | .fread _ n => decide (1 ≤ n.toNat)
  | .thresh gray => decide (gray.toNat ≤ 240)
  | .laddr y => decide (y.toNat ≤ 254)
  | .frameinit w h => geometryOk w.toNat h.toNat
  | .detach => true
  | .mstore _ _ => true
  | .reqfl => true
  | .status => true
  | .acq => true
  | .enc => true
  | .xfer => true
  | .xdone _ => true
  | .llow => true
  | .lhigh => true
  | .rel => true
  | .dfin => true
  | .luma _ _ _ => true
  | .pack8 _ _ _ _ _ _ _ _ => true

end Sys2Proof
end

