-- ==== Sys2Proof/Decode.lean ====
section
/-! DEFINITION. The opcode map (R86) as a decoder and an encoder of command words (R85, R87, R88, R90). -/

namespace Sys2Proof

/-- The instruction a command word stands for: the opcode selects it and the operands R87 names for it are taken
from the record; every other opcode is reserved (R86, R88, R90). -/
def decode (c : CmdWord) : Except DecodeError Instr :=
  match c.op.toNat with
  | 0x01 => .ok (.attach c.args.w c.args.h c.args.bpc c.args.pin c.args.xport)
  | 0x02 => .ok .detach
  | 0x03 => .ok (.swrite c.args.off c.args.bs)
  | 0x04 => .ok (.sread c.args.off c.args.n)
  | 0x05 => .ok (.mstore c.args.off c.args.v)
  | 0x06 => .ok .reqfl
  | 0x07 => .ok .status
  | 0x08 => .ok (.fread c.args.off c.args.n)
  | 0x10 => .ok .acq
  | 0x11 => .ok .enc
  | 0x12 => .ok .xfer
  | 0x13 => .ok (.xdone c.args.r)
  | 0x14 => .ok .llow
  | 0x15 => .ok .lhigh
  | 0x16 => .ok .rel
  | 0x17 => .ok .dfin
  | 0x20 => .ok (.luma c.args.red c.args.green c.args.blue)
  | 0x21 => .ok (.thresh c.args.gray)
  | 0x22 => .ok (.pack8 c.args.b0 c.args.b1 c.args.b2 c.args.b3 c.args.b4 c.args.b5 c.args.b6 c.args.b7)
  | 0x23 => .ok (.laddr c.args.y)
  | 0x24 => .ok (.frameinit c.args.w c.args.h)
  | _ => .error (.reserved c.op)

/-- The command word of an instruction: its opcode of R86 and the operands R87 names, all others zero (DESIGN CHOICE, log 1, safe). -/
def encode : Instr → CmdWord
  | .attach w h bpc pin xport => ⟨0x01, { w := w, h := h, bpc := bpc, pin := pin, xport := xport }⟩
  | .detach => ⟨0x02, {}⟩
  | .swrite off bs => ⟨0x03, { off := off, bs := bs }⟩
  | .sread off n => ⟨0x04, { off := off, n := n }⟩
  | .mstore off v => ⟨0x05, { off := off, v := v }⟩
  | .reqfl => ⟨0x06, {}⟩
  | .status => ⟨0x07, {}⟩
  | .fread off n => ⟨0x08, { off := off, n := n }⟩
  | .acq => ⟨0x10, {}⟩
  | .enc => ⟨0x11, {}⟩
  | .xfer => ⟨0x12, {}⟩
  | .xdone r => ⟨0x13, { r := r }⟩
  | .llow => ⟨0x14, {}⟩
  | .lhigh => ⟨0x15, {}⟩
  | .rel => ⟨0x16, {}⟩
  | .dfin => ⟨0x17, {}⟩
  | .luma r g b => ⟨0x20, { red := r, green := g, blue := b }⟩
  | .thresh gray => ⟨0x21, { gray := gray }⟩
  | .pack8 b0 b1 b2 b3 b4 b5 b6 b7 =>
      ⟨0x22, { b0 := b0, b1 := b1, b2 := b2, b3 := b3, b4 := b4, b5 := b5, b6 := b6, b7 := b7 }⟩
  | .laddr y => ⟨0x23, { y := y }⟩
  | .frameinit w h => ⟨0x24, { w := w, h := h }⟩

/-- The operands of a record that an opcode defines (R87 and the operand lines of 40_datapath.md), the others zero. -/
def operandsOf (op : Byte) (a : Operands) : Operands :=
  match op.toNat with
  | 0x01 => { w := a.w, h := a.h, bpc := a.bpc, pin := a.pin, xport := a.xport }
  | 0x03 => { off := a.off, bs := a.bs }
  | 0x04 => { off := a.off, n := a.n }
  | 0x05 => { off := a.off, v := a.v }
  | 0x08 => { off := a.off, n := a.n }
  | 0x13 => { r := a.r }
  | 0x20 => { red := a.red, green := a.green, blue := a.blue }
  | 0x21 => { gray := a.gray }
  | 0x22 => { b0 := a.b0, b1 := a.b1, b2 := a.b2, b3 := a.b3, b4 := a.b4, b5 := a.b5, b6 := a.b6, b7 := a.b7 }
  | 0x23 => { y := a.y }
  | 0x24 => { w := a.w, h := a.h }
  | _ => {}

/-- The class of an opcode byte, `op[7:4]` (R85); `none` for the reserved classes 0x3–0xF. -/
def opClass (op : Byte) : Option OpClass :=
  match op.toNat / 16 with
  | 0 => some .hcmd
  | 1 => some .uop
  | 2 => some .func
  | _ => none

/-- The opcodes R86 lists. -/
def listedOpcode (op : Byte) : Bool :=
  (decide (0x01 ≤ op.toNat) && decide (op.toNat ≤ 0x08)) ||
  (decide (0x10 ≤ op.toNat) && decide (op.toNat ≤ 0x17)) ||
  (decide (0x20 ≤ op.toNat) && decide (op.toNat ≤ 0x24))

/-- The class of an instruction (R86). -/
def Instr.cls : Instr → OpClass
  | .attach _ _ _ _ _ => .hcmd
  | .detach => .hcmd
  | .swrite _ _ => .hcmd
  | .sread _ _ => .hcmd
  | .mstore _ _ => .hcmd
  | .reqfl => .hcmd
  | .status => .hcmd
  | .fread _ _ => .hcmd
  | .acq => .uop
  | .enc => .uop
  | .xfer => .uop
  | .xdone _ => .uop
  | .llow => .uop
  | .lhigh => .uop
  | .rel => .uop
  | .dfin => .uop
  | .luma _ _ _ => .func
  | .thresh _ => .func
  | .pack8 _ _ _ _ _ _ _ _ => .func
  | .laddr _ => .func
  | .frameinit _ _ => .func

/-- The command word whose opcode is the low `nbits` bits of `w` (at most 8, R90) with a zero operand record (DESIGN CHOICE, log 1, safe). -/
def tableWord (nbits w : Nat) : CmdWord :=
  ⟨BitVec.ofNat 8 (w % 2 ^ nbits), {}⟩

/-- What the decoder reads from an opcode-table row's bits with a zero operand record. -/
def decodeTableWord (nbits w : Nat) : Option Instr :=
  match decode (tableWord nbits w) with
  | .ok i => some i
  | .error _ => none

end Sys2Proof
end

