-- ==== Sys2Proof/Machine/State.lean ====
section
/-! DEFINITION. The state of one block instance: the record `st` of 10_state.md, the two memories, the trace, the
model's marks, and the interleaving still to be taken, as plain data. -/

namespace Sys2Proof.Machine

/-- The lifecycle state (R23). -/
inductive Life where
  | uninit
  | attached
  | detaching
  | detached
deriving DecidableEq, Repr

/-- The place in the flush sequence (R22); code 7 is never held. -/
inductive Phase where
  | idle
  | enc
  | xfer
  | wait
  | llow
  | lhigh
  | rel
deriving DecidableEq, Repr

/-- The level the block drives on the latch pin (R29). -/
inductive Latch where
  | low
  | high
  | undriven
deriving DecidableEq, Repr

/-- A level a `Pin` event carries (R37). -/
inductive Level where
  | low
  | high
deriving DecidableEq, Repr

/-- The error codes (R180); codes 6 and 7 are never raised. -/
inductive ErrorCode where
  | noError
  | allocationFailure
  | configurationError
  | transportFailure
  | illegalState
  | illegalCommand
deriving DecidableEq, Repr

/-- The events of the trace (R37). -/
inductive Event where
  | attached (w h : Word)
  | attachFailed (code : ErrorCode)
  | xfer (bs : List Byte)
  | xferResult (r : Answer)
  | pin (l : Level)
  | log (code : ErrorCode)
  | detached
deriving DecidableEq, Repr

/-- Why the model refuses an input (R12, R63, R152). -/
inductive RefuseReason where
  | bpc
  | width
  | height
  | surfaceRange
  | frameRange
deriving DecidableEq, Repr

/-- The data a host command returns beside its result code (R150, R155, R158, R159). -/
inductive ReplyData where
  | nothing
  | bytes (bs : List Byte)
  | words (ws : List Word)
deriving DecidableEq, Repr

/-- What a host context got back from one command (R150). -/
structure Reply where
  ctx  : Nat
  code : ErrorCode
  data : ReplyData := .nothing
deriving DecidableEq, Repr

/-- The value of a datapath function (R100–R105). -/
inductive FnOut where
  | nothing
  | gray (g : Nat)
  | bit (b : Bool)
  | byte (v : Byte)
  | bytes (bs : List Byte)
deriving DecidableEq, Repr

/-- The draws a listing records beside a line (R91: "records the draw of rule R156"); what is not recorded is a free
value of Config. `race` gives, for a surface address, which candidate ENC reads there (DESIGN CHOICE, logs 6, 7, 8, safe). -/
structure Draws where
  alloc : Option Bool := none
  hook  : Option Bool := none
  race  : List (Nat × Nat) := []
deriving DecidableEq, Repr

/-- Who takes a line of the listing: a host context or the sequencer (R91), or the model's own evaluation of a
datapath function, which no agent of the hardware issues (R86; DESIGN CHOICE, log 3, safe). -/
inductive Agent where
  | host (ctx : Nat)
  | seq
  | datapath
deriving DecidableEq, Repr

/-- One line of a listing (R91): an agent, a command word, and the draws recorded with it. -/
structure Line where
  agent : Agent
  word  : CmdWord
  draws : Draws := {}
deriving DecidableEq, Repr

/-- One block instance. The first group is the spec's record `st` with `S` and `F` (R22–R31, R39), the second the
trace, the mark and what host contexts see (R37, R38, R150), the third the model's own. -/
structure State where
  life     : Life
  phase    : Phase
  pending  : Bool
  lock     : Bool
  surf     : List Host.Cell
  frame    : List Host.Cell
  width    : Word
  height   : Word
  latch    : Latch
  lastErr  : ErrorCode
  errCount : Word
  snap     : List Host.Cell
  wr       : List Host.Cell
  trace    : List Event
  refused  : Bool
  detacher : Option Nat
  replies  : List Reply
  listing  : List Line
  issuer   : Nat
  recorded : Draws
  draws    : Nat
  fnOut    : FnOut
deriving DecidableEq, Repr

/-- Reasons the machine stops. No meaning of an instruction raises one. -/
inductive Fault where
  /-- Raised by `step` alone, where a line gives the sequencer or the datapath an opcode of a class it never takes
  (R86); the spec gives that no meaning (DESIGN CHOICE, log 21). Safe: the machine stops. -/
  | wrongAgent
deriving DecidableEq, Repr

/-- Reasons an instruction has no meaning in the model. -/
inductive Refusal where
  /-- Raised by an arm of `exec` that has no meaning yet; no arm is one. Safe: the machine stops. -/
  | notModelled (mnemonic : String)
deriving DecidableEq, Repr

/-- What a step or a meaning answers. -/
abbrev Result := Host.Outcome State Fault Refusal

/-- The state after hardware reset (R40, R210). The fields R40 does not list are DESIGN CHOICE (log 19): the mark
unset, nothing returned, nothing to take. -/
def State.reset : State where
  life     := .uninit
  phase    := .idle
  pending  := false
  lock     := false
  surf     := []
  frame    := []
  width    := 0
  height   := 0
  latch    := .undriven
  lastErr  := .noError
  errCount := 0
  snap     := []
  wr       := []
  trace    := []
  refused  := false
  detacher := none
  replies  := []
  listing  := []
  issuer   := 0
  recorded := {}
  draws    := 0
  fnOut    := .nothing

end Sys2Proof.Machine
end

