-- ==== Sys2Proof/Machine/Operands.lean ====
section
/-! DEFINITION. The address arithmetic (R8, R52, R54, R55, R87), the bit orders (R82, R83) and the datapath functions
(R100–R106), each a pure function. -/

namespace Sys2Proof.Machine

/-- `DB = W/8`, the data bytes of a frame line (R8). -/
def dataBytes (w : Nat) : Nat := w / 8

/-- `LINE_BYTES = 3*W` (R8, R52). -/
def lineBytes (w : Nat) : Nat := Config.bpp * w

/-- `SURF_SIZE = W*H*3` (R8, R25). -/
def surfSize (w h : Nat) : Nat := w * h * Config.bpp

/-- `FRAME_LEN = 1 + H*(1 + W/8 + 1) + 1` (R8, R28). -/
def frameLen (w h : Nat) : Nat := 1 + h * (1 + dataBytes w + 1) + 1

/-- `pix(x, y) = y*LINE_BYTES + x*3`, the first surface byte of a pixel (R52). -/
def pix (w x y : Nat) : Nat := y * lineBytes w + x * Config.bpp

/-- `lb(y) = 1 + y*(DB + 2)`, the frame address of a line (R54). -/
def lineBase (w y : Nat) : Nat := 1 + y * (dataBytes w + 2)

/-- The frame address of data byte `k` of line `y` (R54). -/
def dataAddr (w y k : Nat) : Nat := lineBase w y + 1 + k

/-- The line and byte number of a frame address that holds a data byte; `none` for the config, address, trailer and
terminator bytes and beyond the frame (R54). -/
def dataPos (w h i : Nat) : Option (Nat × Nat) :=
  let y := (i - 1) / (dataBytes w + 2)
  let r := (i - 1) % (dataBytes w + 2)
  if 1 ≤ i ∧ y < h ∧ 1 ≤ r ∧ r ≤ dataBytes w then some (y, r - 1) else none

/-- The byte whose bits 7 down to 0 are these, in this order. -/
def byteOfBits (b7 b6 b5 b4 b3 b2 b1 b0 : Bool) : Byte :=
  BitVec.ofBool b7 ++ BitVec.ofBool b6 ++ BitVec.ofBool b5 ++ BitVec.ofBool b4 ++
  BitVec.ofBool b3 ++ BitVec.ofBool b2 ++ BitVec.ofBool b1 ++ BitVec.ofBool b0

/-- `bitrev8(v)`: bit `i` is `v[7-i]` (R10). -/
def bitrev8 (v : Byte) : Byte :=
  byteOfBits (v.getLsbD 0) (v.getLsbD 1) (v.getLsbD 2) (v.getLsbD 3)
    (v.getLsbD 4) (v.getLsbD 5) (v.getLsbD 6) (v.getLsbD 7)

/-- `LUMA` (R100): each division truncates by itself, on Nat. -/
def luma (r g b : Byte) : Nat := r.toNat / 3 + g.toNat / 2 + b.toNat / 9

/-- `THRESH` (R102): on iff gray is at least the threshold. -/
def thresh (gray : Nat) : Bool := decide (Config.threshold ≤ gray)

/-- `PACK8` (R103): `b0` the most significant bit, `b7` the least. -/
def pack8 (b0 b1 b2 b3 b4 b5 b6 b7 : Bool) : Byte := byteOfBits b0 b1 b2 b3 b4 b5 b6 b7

/-- `LADDR` (R104, C1): the 1-based line number with its bits reversed. Above line 254 the rule gives no value: a free
value (DESIGN CHOICE, log 12, safe). -/
def laddr (y : Nat) : Byte :=
  if y + 1 ≤ 255 then bitrev8 (BitVec.ofNat 8 (y + 1)) else Config.lineAddrBeyond y

/-- What FRAMEINIT writes at a frame address (R54, R105). -/
def frameInitByte (w h i : Nat) : Byte :=
  let y := (i - 1) / (dataBytes w + 2)
  let r := (i - 1) % (dataBytes w + 2)
  if i = 0 then Config.cfgByte
  else if i + 1 = frameLen w h then Config.termByte
  else if r = 0 then laddr y
  else if r = dataBytes w + 1 then Config.trailerByte
  else 0x00

/-- `FRAMEINIT` (R105): a new frame with its fixed bytes and data bytes 0x00. -/
def frameInit (w h : Nat) : List Host.Cell :=
  (List.range (frameLen w h)).map fun i => (i, frameInitByte w h i)

/-- The on/off bit of pixel `(x, y)` of a surface image (R53, R106). -/
def pixelBit (img : Nat → Byte) (w x y : Nat) : Bool :=
  thresh (luma (img (pix w x y)) (img (pix w x y + 1)) (img (pix w x y + 2)))

/-- `ENCODE(S')(y, k)` (R106). -/
def encodeByte (img : Nat → Byte) (w y k : Nat) : Byte :=
  pack8 (pixelBit img w (8 * k) y) (pixelBit img w (8 * k + 1) y) (pixelBit img w (8 * k + 2) y)
    (pixelBit img w (8 * k + 3) y) (pixelBit img w (8 * k + 4) y) (pixelBit img w (8 * k + 5) y)
    (pixelBit img w (8 * k + 6) y) (pixelBit img w (8 * k + 7) y)

/-- The frame byte at address `i` after ENC, where it held `v`: the encoded byte at a data address, else `v` (R123). -/
def encodedByte (img : Nat → Byte) (w h i : Nat) (v : Byte) : Byte :=
  match dataPos w h i with
  | some p => encodeByte img w p.1 p.2
  | none => v

/-- ENC's writes into the frame: every data byte, nothing else (R123). -/
def encodeFrame (img : Nat → Byte) (w h : Nat) (f : List Host.Cell) : List Host.Cell :=
  f.map fun c => (c.1, encodedByte img w h c.1 c.2)

end Sys2Proof.Machine
end

