-- ==== Sys2Proof/Machine/Ops.lean ====
section
/-! DEFINITION. The named operations over the two memories, the race sets and the state record; taking an error. -/

namespace Sys2Proof.Machine

/-! ### SURF: a sparse memory whose unlisted bytes read 0x00 (R41 "zero-filled"; DEDUCED, log 15, safe) -/

/-- Read one byte. -/
def memRead : List Host.Cell → Nat → Byte
  | [], _ => 0
  | (b, w) :: m, a => if a = b then w else memRead m a

/-- Write one byte, keeping addresses rising and no zero listed. -/
def memWrite : List Host.Cell → Nat → Byte → List Host.Cell
  | [], a, v => if v = 0 then [] else [(a, v)]
  | (b, w) :: m, a, v =>
    if a < b then (if v = 0 then (b, w) :: m else (a, v) :: (b, w) :: m)
    else if a = b then (if v = 0 then m else (a, v) :: m)
    else (b, w) :: memWrite m a v

/-- `MemWrite(SURF:a, n, bs)` (R11). -/
def memWriteList : List Host.Cell → Nat → List Byte → List Host.Cell
  | m, _, [] => m
  | m, a, v :: bs => memWriteList (memWrite m a v) (a + 1) bs

/-- `MemRead(SURF:a, n)` (R11). -/
def memReadList (m : List Host.Cell) (a n : Nat) : List Byte :=
  (List.range n).map fun k => memRead m (a + k)

/-- Addresses strictly rising from `lo`, no byte 0 listed. -/
def memWfFrom (lo : Nat) : List Host.Cell → Bool
  | [] => true
  | (a, v) :: m => decide (lo ≤ a) && decide (v ≠ 0) && memWfFrom (a + 1) m

/-- The canonical form of SURF. -/
def memWf (m : List Host.Cell) : Bool := memWfFrom 0 m

/-- Every listed address is below `size`. -/
def memBelow (size : Nat) (m : List Host.Cell) : Bool := m.all fun c => decide (c.1 < size)

/-! ### FRAME: every byte listed; an unlisted address holds no byte (DEDUCED, log 16, safe) -/

/-- The byte at a frame address, if the frame has one there. -/
def frameRead? : List Host.Cell → Nat → Option Byte
  | [], _ => none
  | (b, w) :: f, i => if i = b then some w else frameRead? f i

/-- `MemRead(FRAME:i, n)` (R11): the bytes at `i .. i+n-1` in increasing order. -/
def frameReadList (f : List Host.Cell) (i n : Nat) : List Byte :=
  (List.range n).filterMap fun k => frameRead? f (i + k)

/-! ### `st.wr`: pairs of an address and a byte, rising, no pair twice (R31) -/

/-- Add a byte to the set at an address. -/
def raceInsert : List Host.Cell → Nat → Byte → List Host.Cell
  | [], a, v => [(a, v)]
  | (b, w) :: m, a, v =>
    if a < b ∨ (a = b ∧ v.toNat < w.toNat) then (a, v) :: (b, w) :: m
    else if a = b ∧ v = w then (b, w) :: m
    else (b, w) :: raceInsert m a v

/-- Add `bs[k]` to the set at `a + k`, for each `k` (R154). -/
def raceInsertList : List Host.Cell → Nat → List Byte → List Host.Cell
  | m, _, [] => m
  | m, a, v :: bs => raceInsertList (raceInsert m a v) (a + 1) bs

/-- `st.wr[a]` (R31). -/
def raceAt (wr : List Host.Cell) (a : Nat) : List Byte :=
  (wr.filter fun c => decide (c.1 = a)).map fun c => c.2

/-- Pairs strictly rising: by address, then by byte. -/
def raceWf : List Host.Cell → Bool
  | [] => true
  | (a, v) :: m => m.all (fun c => decide (a < c.1 ∨ (a = c.1 ∧ v.toNat < c.2.toNat))) && raceWf m

/-! ### Geometry and existence -/

/-- `SURF_SIZE` of the attached geometry (R25). -/
def State.surfSize (s : State) : Nat := Sys2Proof.Machine.surfSize s.width.toNat s.height.toNat

/-- `FRAME_LEN` of the attached geometry (R28). -/
def State.frameLen (s : State) : Nat := Sys2Proof.Machine.frameLen s.width.toNat s.height.toNat

/-- SURF and FRAME exist, and surface and frame commands are legal (R51, R154, R160). -/
def State.present (s : State) : Bool :=
  match s.life with
  | .uninit => false
  | .attached => true
  | .detaching => true
  | .detached => false

/-- ATTACH's geometry check, in its order (R152). -/
def geometryRefusal (w h : Word) (bpc : Byte) : Option RefuseReason :=
  if bpc ≠ 8 then some .bpc
  else if w.toNat = 0 ∨ w.toNat % 8 ≠ 0 then some .width
  else if h.toNat = 0 ∨ h.toNat > 255 then some .height
  else none

/-- A surface or frame access with no meaning: empty, or past the end (R63). -/
def rangeBad (a n size : Nat) : Bool := decide (n = 0) || decide (a + n > size)

/-! ### Trace, replies, errors, refusals -/

/-- `emit E` (R12). -/
def State.emit (s : State) (e : Event) : State := { s with trace := s.trace ++ [e] }

/-- Return a result code and data to the issuing host context (R150; DESIGN CHOICE, log 17, safe). -/
def State.reply (s : State) (code : ErrorCode) (data : ReplyData) : State :=
  { s with replies := s.replies ++ [{ ctx := s.issuer, code := code, data := data }] }

/-- The 3-bit code of an error (R180). -/
def errorBits : ErrorCode → BitVec 3
  | .noError => 0
  | .allocationFailure => 1
  | .configurationError => 2
  | .transportFailure => 3
  | .illegalState => 4
  | .illegalCommand => 5

/-- `st.err_count + 1`, saturating at 0xFFFFFFFF (R30, R183). -/
def saturatingSucc (c : Word) : Word := if c = 0xFFFFFFFF then c else c + 1

/-- `raise Error(code)` (R12, R189, R190): the code is recorded; a TransportFailure is also counted and logged
(R183, R204). Nothing else changes and control goes nowhere. -/
def State.raiseError (s : State) (code : ErrorCode) : State :=
  match code with
  | .transportFailure =>
    ({ s with lastErr := .transportFailure, errCount := saturatingSucc s.errCount }).emit (.log .transportFailure)
  | .noError => { s with lastErr := .noError }
  | .allocationFailure => { s with lastErr := .allocationFailure }
  | .configurationError => { s with lastErr := .configurationError }
  | .illegalState => { s with lastErr := .illegalState }
  | .illegalCommand => { s with lastErr := .illegalCommand }

/-- A host command ends with an error: recorded, and its code returned (R150, R184, R185). -/
def State.hostError (s : State) (code : ErrorCode) : State := (s.raiseError code).reply code .nothing

/-- `REFUSE(reason)` (R12, R38, R186): the step does not happen and the mark is set; no code, no event. The reason is
for the reader: R38's mark is one bit. Unsafe for a claim that does not demand the mark unset (DEDUCED, log 4). -/
def State.refuse (s : State) (_why : RefuseReason) : State := { s with refused := true }

/-! ### Draws: recorded beside the line, else a free value (DESIGN CHOICE, logs 6, 7, 8, safe). Two instances at equal
draw counters have equal free values (DESIGN CHOICE, log 30, unsafe). -/

/-- A draw has been taken. -/
def State.drew (s : State) : State := { s with draws := s.draws + 1 }

/-- The allocator's answer (R151; DESIGN CHOICE, log 6, safe). Unrecorded, it is one function of the instance's own
counter, so two instances at equal counters get equal answers (DESIGN CHOICE, log 30, unsafe). -/
def State.allocDraw (s : State) : Bool := s.recorded.alloc.getD (Config.allocOracle s.draws)

/-- MSTORE's hook draw (R156; DESIGN CHOICE, log 7, safe). -/
def State.hookDraw (s : State) : Bool := s.recorded.hook.getD (Config.hookOracle s.draws)

/-- The number drawn for surface address `a` in ENC (R64; DESIGN CHOICE, log 8, safe). -/
def State.raceDraw (s : State) (a : Nat) : Nat := (s.recorded.race.lookup a).getD (Config.raceOracle s.draws a)

/-- `{st.snap[a]} ∪ st.wr[a]`, the snapshot value first (R64). -/
def State.candidates (s : State) (a : Nat) : List Byte := memRead s.snap a :: raceAt s.wr a

/-- `S'[a]`, the byte ENC reads at surface address `a` (R64): the snapshot value where no write raced, else the drawn
candidate. -/
def State.encImage (s : State) (a : Nat) : Byte :=
  match raceAt s.wr a with
  | [] => memRead s.snap a
  | _ :: _ => (s.candidates a).getD (s.raceDraw a % (s.candidates a).length) (memRead s.snap a)

/-! ### Surface writes -/

/-- A surface write: the bytes land, and during the encode window each is added to `wr` (R64, R154, R156). -/
def State.writeSurface (s : State) (a : Nat) (bs : List Byte) : State :=
  { s with
    surf := memWriteList s.surf a bs
    wr := if s.phase = .enc then raceInsertList s.wr a bs else s.wr }

/-- The transfer in flight (R32): while `phase = P_WAIT`, the bytes of the last `Xfer` event. -/
def lastXfer : List Event → Option (List Byte)
  | [] => none
  | e :: es =>
    match lastXfer es, e with
    | some bs, _ => some bs
    | none, .xfer bs => some bs
    | none, .attached _ _ => none
    | none, .attachFailed _ => none
    | none, .xferResult _ => none
    | none, .pin _ => none
    | none, .log _ => none
    | none, .detached => none

/-- The bytes the transport holds, if a transfer is in flight (R32). -/
def State.inFlight (s : State) : Option (List Byte) := if s.phase = .wait then lastXfer s.trace else none

end Sys2Proof.Machine
end

