-- ==== Sys2Proof/Machine/Datapath.lean ====
section
/-! DEFINITION. The meanings of the FUNC opcodes (40_datapath.md). No agent issues one (R86); a line of the model's own
kind evaluates the function, and its value goes to `fnOut` alone: the functions have no state, flags or side effects
(DESIGN CHOICE, log 3; safe). -/

namespace Sys2Proof.Machine

/-- LUMA (R100). -/
def execLuma (r g b : Byte) (s : State) : Result := .next { s with fnOut := .gray (luma r g b) }

/-- THRESH (R102); the rule's comparison is taken for every operand (DEDUCED, log 14; unsafe above 240). -/
def execThresh (gray : Byte) (s : State) : Result := .next { s with fnOut := .bit (thresh gray.toNat) }

/-- PACK8 (R103). -/
def execPack8 (b0 b1 b2 b3 b4 b5 b6 b7 : Bool) (s : State) : Result :=
  .next { s with fnOut := .byte (pack8 b0 b1 b2 b3 b4 b5 b6 b7) }

/-- LADDR (R104). -/
def execLaddr (y : Byte) (s : State) : Result := .next { s with fnOut := .byte (laddr y.toNat) }

/-- FRAMEINIT (R105): the bytes it builds, in address order; the block's own frame is written only by ATTACH. -/
def execFrameinit (w h : Word) (s : State) : Result :=
  .next { s with fnOut := .bytes ((frameInit w.toNat h.toNat).map fun c => c.2) }

end Sys2Proof.Machine
end

