-- ==== Sys2Proof/Machine/Flags.lean ====
section
/-! DEFINITION. The two flags, `pending` and `lock` (R26, R27, R34), the enabling conditions (R120–R130), and the
fields of the status record (R36). -/

namespace Sys2Proof.Machine

/-- A flush request: `pending <- 1` (R26). -/
def State.request (s : State) : State := { s with pending := true }

/-- The write hook: a request, while attached; unregistered by DETACH (R153, R154). -/
def State.hook (s : State) : State := if s.life = .attached then s.request else s

/-- A request or the drop of one changes nothing else; DETACH and ACQ clear the flag (R121, R153). -/
def State.clearPending (s : State) : State := { s with pending := false }

/-- `lock <- 1` or `lock <- 0` (R27). -/
def State.setLock (s : State) (b : Bool) : State := { s with lock := b }

/-- `phase <- p` (R11). -/
def State.goto (s : State) (p : Phase) : State := { s with phase := p }

/-- The enabling condition of ACQ (R121). -/
def State.acqEnabled (s : State) : Bool :=
  decide (s.life = .attached) && decide (s.phase = .idle) && s.pending

/-- The enabling condition of DFIN (R130). -/
def State.dfinEnabled (s : State) : Bool := decide (s.life = .detaching) && decide (s.phase = .idle)

/-- `enabled(step)` (R12, R120); host commands and datapath functions have no enabling condition (R223). -/
def State.enabled (s : State) : Instr → Bool
  | .acq => s.acqEnabled
  | .enc => decide (s.phase = .enc)
  | .xfer => decide (s.phase = .xfer)
  | .xdone _ => decide (s.phase = .wait)
  | .llow => decide (s.phase = .llow)
  | .lhigh => decide (s.phase = .lhigh)
  | .rel => decide (s.phase = .rel)
  | .dfin => s.dfinEnabled
  | .attach _ _ _ _ _ => true
  | .detach => true
  | .swrite _ _ => true
  | .sread _ _ => true
  | .mstore _ _ => true
  | .reqfl => true
  | .status => true
  | .fread _ _ => true
  | .luma _ _ _ => true
  | .thresh _ => true
  | .pack8 _ _ _ _ _ _ _ _ => true
  | .laddr _ => true
  | .frameinit _ _ => true

/-- Take a sequencer step only when it is enabled; one that is not is not taken, and nothing changes (R12, R120;
DESIGN CHOICE, log 5; safe). -/
def whenEnabled (enabled : Bool) (before after : State) : Result :=
  if enabled then .next after else .next before

/-- The `state` field of status word 0 (R36). -/
def stateBits (s : State) : Word :=
  match s.life with
  | .uninit => 0
  | .attached => if s.phase = .idle then 1 else 2
  | .detaching => 3
  | .detached => 4

/-- The code of a phase (R22). -/
def phaseBits : Phase → Word
  | .idle => 0
  | .enc => 1
  | .xfer => 2
  | .wait => 3
  | .llow => 4
  | .lhigh => 5
  | .rel => 6

/-- The `latch` field of status word 0 (R36). -/
def latchBits : Latch → Word
  | .low => 0
  | .high => 1
  | .undriven => 2

/-- A one-bit field. -/
def flagBit (b : Bool) : Word := if b then 1 else 0

/-- Status word 0 (R36): reserved bits read 0. -/
def statusWord0 (s : State) : Word :=
  stateBits s ||| (phaseBits s.phase <<< 4) ||| (flagBit s.pending <<< 8) ||| (latchBits s.latch <<< 9) |||
  (flagBit s.lock <<< 11) ||| ((errorBits s.lastErr).setWidth 32 <<< 12)

/-- The four words of the status record (R36): the geometry words are 0 outside ATTACHED and DETACHING. -/
def statusWords (s : State) : List Word :=
  [statusWord0 s, s.errCount, if s.present then s.width else 0, if s.present then s.height else 0]

end Sys2Proof.Machine
end

