-- ==== Sys2Proof/Machine/HostCommands.lean ====
section
/-! DEFINITION. The meanings of the host commands (42_host_commands.md). -/

namespace Sys2Proof.Machine

/-- The state a successful ATTACH leaves (R41, R151): the fields in R151's order, then the events and the result.
`snap` and `wr` are emptied as R41 lists them (DEDUCED, log 23, safe). -/
def State.attachDone (s : State) (w h : Word) : State :=
  ((({ s with
      surf := []
      frame := frameInit w.toNat h.toNat
      width := w
      height := h
      pending := false
      lock := false
      phase := .idle
      latch := .high
      lastErr := .noError
      errCount := 0
      snap := []
      wr := []
      life := .attached }).emit (.pin .high)).emit (.attached w h)).reply .noError .nothing

/-- ATTACH fails with an error: the event, the record and the result; nothing stays allocated (R181, R182). -/
def State.attachFailed (s : State) (code : ErrorCode) : State := (s.emit (.attachFailed code)).hostError code

/-- ATTACH (R151), with its checks in the order of R188. -/
def execAttach (w h : Word) (bpc : Byte) (pin xport : Handle) (s : State) : Result :=
  if s.life ≠ .uninit then .next (s.hostError .illegalState)
  else
    match geometryRefusal w h bpc with
    | some why => .next (s.refuse why)
    | none =>
      if ¬ (pin.valid && xport.valid) then .next (s.attachFailed .configurationError)
      else if s.allocDraw then .next (s.drew.attachDone w h)
      else .next (s.drew.attachFailed .allocationFailure)

/-- DETACH (R153): the effect happens in one step; the issuing context is blocked and its result is returned by DFIN. -/
def execDetach (s : State) : Result :=
  if s.life ≠ .attached then .next (s.hostError .illegalState)
  else .next { s with life := .detaching, pending := false, detacher := some s.issuer }

/-- SWRITE (R154). -/
def execSwrite (off : Word) (bs : List Byte) (s : State) : Result :=
  if ¬ s.present then .next (s.hostError .illegalState)
  else if rangeBad off.toNat bs.length s.surfSize then .next (s.refuse .surfaceRange)
  else .next (((s.writeSurface off.toNat bs).hook).reply .noError .nothing)

/-- SREAD (R155). -/
def execSread (off n : Word) (s : State) : Result :=
  if ¬ s.present then .next (s.hostError .illegalState)
  else if rangeBad off.toNat n.toNat s.surfSize then .next (s.refuse .surfaceRange)
  else .next (s.reply .noError (.bytes (memReadList s.surf off.toNat n.toNat)))

/-- MSTORE (R156): one byte; whether the hook runs is a draw (DESIGN CHOICE, log 7, safe). -/
def execMstore (off : Word) (v : Byte) (s : State) : Result :=
  if ¬ s.present then .next (s.hostError .illegalState)
  else if rangeBad off.toNat 1 s.surfSize then .next (s.refuse .surfaceRange)
  else
    let t := (s.writeSurface off.toNat [v]).drew
    .next ((if s.hookDraw then t.hook else t).reply .noError .nothing)

/-- REQFL (R157). -/
def execReqfl (s : State) : Result :=
  match s.life with
  | .attached => .next (s.request.reply .noError .nothing)
  | .detaching => .next (s.reply .noError .nothing)
  | .detached => .next (s.reply .noError .nothing)
  | .uninit => .next (s.hostError .illegalState)

/-- STATUS (R158). -/
def execStatus (s : State) : Result := .next (s.reply .noError (.words (statusWords s)))

/-- FREAD (R159). -/
def execFread (off n : Word) (s : State) : Result :=
  if ¬ s.present then .next (s.hostError .illegalState)
  else if rangeBad off.toNat n.toNat s.frameLen then .next (s.refuse .frameRange)
  else .next (s.reply .noError (.bytes (frameReadList s.frame off.toNat n.toNat)))

end Sys2Proof.Machine
end

