-- ==== Sys2Proof/Machine/Sequencer.lean ====
section
/-! DEFINITION. The meanings of the sequencer steps (41_flush_sequencer.md). -/

namespace Sys2Proof.Machine

/-- ACQ (R121): take the lock and the snapshot; the request is consumed here (D13). -/
def execAcq (s : State) : Result :=
  whenEnabled (s.enabled .acq) s
    ({ (s.clearPending.setLock true) with snap := s.surf, wr := [] }.goto .enc)

/-- ENC (R123): every data byte of the frame is encoded from the image drawn by R64. -/
def execEnc (s : State) : Result :=
  whenEnabled (s.enabled .enc) s
    (({ s with
        frame := encodeFrame s.encImage s.width.toNat s.height.toNat s.frame
        snap := []
        wr := [] }.drew).goto .xfer)

/-- XFER (R124): the whole frame goes to the transport in address order (R58). -/
def execXfer (s : State) : Result :=
  whenEnabled (s.enabled .xfer) s
    ((s.emit (.xfer (frameReadList s.frame 0 s.frameLen))).goto .wait)

/-- XDONE (R125 for `ok`, R126 for `err`). -/
def execXdone (r : Answer) (s : State) : Result :=
  whenEnabled (s.enabled (.xdone r)) s
    (match r with
      | .ok => (s.emit (.xferResult .ok)).goto .llow
      | .err => ((s.emit (.xferResult .err)).raiseError .transportFailure).goto .rel)

/-- LLOW (R127). -/
def execLlow (s : State) : Result :=
  whenEnabled (s.enabled .llow) s (({ s with latch := .low }.emit (.pin .low)).goto .lhigh)

/-- LHIGH (R128). -/
def execLhigh (s : State) : Result :=
  whenEnabled (s.enabled .lhigh) s (({ s with latch := .high }.emit (.pin .high)).goto .rel)

/-- REL (R129): the lock is released on every exit path (R71, C14). -/
def execRel (s : State) : Result :=
  whenEnabled (s.enabled .rel) s ((s.setLock false).goto .idle)

/-- The host context blocked in DETACH gets its result 0 and runs on (R130, R153; DESIGN CHOICE, log 17, safe). -/
def State.releaseDetacher (s : State) : State :=
  match s.detacher with
  | some c => { s with detacher := none, replies := s.replies ++ [{ ctx := c, code := .noError }] }
  | none => s

/-- DFIN (R130): both memories cease to exist and the detach completes. -/
def execDfin (s : State) : Result :=
  whenEnabled (s.enabled .dfin) s
    (({ s with
        surf := []
        frame := []
        pending := false
        latch := .undriven
        width := 0
        height := 0
        life := .detached }.emit .detached).releaseDetacher)

end Sys2Proof.Machine
end

