-- ==== Sys2Proof/Machine/Dispatch.lean ====
section
/-! DEFINITION. The dispatch: one arm per constructor of Instr. -/

namespace Sys2Proof.Machine

def exec (i : Instr) (s : State) : Host.Outcome State Fault Refusal :=
  match i with
  -- host commands
  | .attach w h bpc pin xport => Sys2Proof.Machine.execAttach w h bpc pin xport s
  | .detach => Sys2Proof.Machine.execDetach s
  | .swrite off bs => Sys2Proof.Machine.execSwrite off bs s
  | .sread off n => Sys2Proof.Machine.execSread off n s
  | .mstore off v => Sys2Proof.Machine.execMstore off v s
  | .reqfl => Sys2Proof.Machine.execReqfl s
  | .status => Sys2Proof.Machine.execStatus s
  | .fread off n => Sys2Proof.Machine.execFread off n s
  -- sequencer steps
  | .acq => Sys2Proof.Machine.execAcq s
  | .enc => Sys2Proof.Machine.execEnc s
  | .xfer => Sys2Proof.Machine.execXfer s
  | .xdone r => Sys2Proof.Machine.execXdone r s
  | .llow => Sys2Proof.Machine.execLlow s
  | .lhigh => Sys2Proof.Machine.execLhigh s
  | .rel => Sys2Proof.Machine.execRel s
  | .dfin => Sys2Proof.Machine.execDfin s
  -- datapath functions
  | .luma r g b => Sys2Proof.Machine.execLuma r g b s
  | .thresh gray => Sys2Proof.Machine.execThresh gray s
  | .pack8 b0 b1 b2 b3 b4 b5 b6 b7 => Sys2Proof.Machine.execPack8 b0 b1 b2 b3 b4 b5 b6 b7 s
  | .laddr y => Sys2Proof.Machine.execLaddr y s
  | .frameinit w h => Sys2Proof.Machine.execFrameinit w h s

end Sys2Proof.Machine
end

