-- ==== Sys2Proof/Machine/Fetch.lean ====
section
/-! DEFINITION. Which agent moves next. The block fetches nothing (R72, R211); the interleaving (R120, R150) is the
listing in State, taken line by line (R91). Where no line can be taken, because none is left or because the next
line's context waits in DETACH (R150, R153), the sequencer takes its own enabled step (R86, R120, R122), and where
none is enabled the block does nothing (R211). DESIGN CHOICE, log 2. -/

namespace Sys2Proof.Machine

/-- What the next step is: an instruction to run from a state, a step that is complete, or a stop. -/
inductive Turn where
  | run (i : Instr) (s : State)
  | done (s : State)
  | stop (f : Fault)
deriving DecidableEq, Repr

/-- The sequencer's enabled step, if it has one (R120, R137). In P_WAIT the transport's answer is drawn; no answer
leaves the sequencer stuck (R131; DESIGN CHOICE, log 9, safe). -/
def State.ownStep (s : State) : Option Instr :=
  match s.phase with
  | .idle => if s.acqEnabled then some .acq else if s.dfinEnabled then some .dfin else none
  | .enc => some .enc
  | .xfer => some .xfer
  | .wait => (Config.xferOracle s.draws).map .xdone
  | .llow => some .llow
  | .lhigh => some .lhigh
  | .rel => some .rel

/-- The state a step starts from when the sequencer moves by itself: nothing is recorded, and the draw counter moves
on. -/
def State.unrecorded (s : State) : State := { s with recorded := {}, draws := s.draws + 1 }

/-- The sequencer moves by itself; with no enabled step nothing happens, and the state stays as it is. -/
def State.ownTurn (s : State) : Turn :=
  match s.ownStep with
  | some i => .run i s.unrecorded
  | none => .done s

/-- The agent waits in DETACH and issues nothing (R150, R153). -/
def State.waits (s : State) : Agent → Bool
  | .host c => decide (s.detacher = some c)
  | .seq => false
  | .datapath => false

/-- The host context a line is issued by; for the others the field keeps its value (DESIGN CHOICE, log 18, safe). -/
def issuerOf (a : Agent) (old : Nat) : Nat :=
  match a with
  | .host c => c
  | .seq => old
  | .datapath => old

/-- Take a line off the listing: its draws are recorded and its context is the issuer. -/
def State.take (s : State) (l : Line) (rest : List Line) : State :=
  { s with listing := rest, issuer := issuerOf l.agent s.issuer, recorded := l.draws }

/-- Who may issue what (R86). -/
def Agent.mayIssue : Agent → OpClass → Bool
  | .host _, c => decide (c = .hcmd)
  | .seq, c => decide (c = .uop)
  | .datapath, c => decide (c = .func)

/-- A command word the agent may not issue: from a host, IllegalCommand (R88, R185); from the others the spec has no
such line (DESIGN CHOICE, log 21, safe). -/
def State.misissued (s : State) : Agent → Turn
  | .host _ => .done (s.hostError .illegalCommand)
  | .seq => .stop .wrongAgent
  | .datapath => .stop .wrongAgent

/-- The turn a line gives, from the state with the line taken. -/
def lineTurn (l : Line) (s : State) : Turn :=
  match decode l.word with
  | .ok i => if l.agent.mayIssue i.cls then .run i s else s.misissued l.agent
  | .error _ => s.misissued l.agent

/-- The next turn. -/
def State.fetch (s : State) : Turn :=
  match s.listing with
  | [] => s.ownTurn
  | l :: rest => if s.waits l.agent then s.ownTurn else lineTurn l (s.take l rest)

/-- The agent that issues an opcode (R86); a reserved opcode is given to a host. The host is h0, or h1 while h0 waits
in DETACH. -/
def State.agentFor (s : State) (op : Byte) : Agent :=
  match opClass op with
  | some .uop => .seq
  | some .func => .datapath
  | some .hcmd => .host (if s.detacher = some 0 then 1 else 0)
  | none => .host (if s.detacher = some 0 then 1 else 0)

/-- The line that carries a command word. -/
def State.lineFor (s : State) (c : CmdWord) : Line := { agent := s.agentFor c.op, word := c }

end Sys2Proof.Machine
end

