-- ==== Sys2Proof/Machine/Step.lean ====
section
/-! DEFINITION. One step of the block: the next turn of the interleaving, run. -/

namespace Sys2Proof.Machine

/-- One step (R120, R150). -/
def step (s : State) : Host.Outcome State Fault Refusal :=
  match s.fetch with
  | .run i t => exec i t
  | .done t => .next t
  | .stop f => .fault f

/-- The state with one more line before the listing: the command word of an opcode-table row with a zero operand
record, issued by the agent R86 gives its class (DESIGN CHOICE, logs 1, 2, safe). -/
def State.withFetchWord (s : State) (nbits w : Nat) : State :=
  { s with listing := s.lineFor (tableWord nbits w) :: s.listing }

end Sys2Proof.Machine
end

