-- ==== Sys2Proof/Machine/Assembler.lean ====
section
/-! DEFINITION. Listing lines and the pseudo-instructions (R91, R92). They are notation: they add no behaviour. -/

namespace Sys2Proof.Machine

/-- `h<ctx>: <command>`. -/
def hostLine (ctx : Nat) (i : Instr) : Line := { agent := .host ctx, word := encode i }

/-- `seq: <step>`. -/
def seqLine (i : Instr) : Line := { agent := .seq, word := encode i }

/-- `h<ctx>: MSTORE off, v ; hook=<hook>`: the comment records the draw (R91). -/
def mstoreLine (ctx : Nat) (off : Word) (v : Byte) (hook : Bool) : Line :=
  { hostLine ctx (.mstore off v) with draws := { hook := some hook } }

/-- `PIX x, y, r, g, b`: one SWRITE at `3*(W*y + x)` (R92). An address of 2^32 or more fits no `off` (R87), and the spec
does not say what such a line is: the address is taken modulo 2^32 (DESIGN CHOICE, log 31, unsafe there). -/
def pixLine (ctx w x y : Nat) (r g b : Byte) : Line :=
  hostLine ctx (.swrite (BitVec.ofNat 32 (3 * (w * y + x))) [r, g, b])

/-- `FILL r, g, b`: one SWRITE of `W*H` copies at 0 (R92). -/
def fillLine (ctx w h : Nat) (r g b : Byte) : Line :=
  hostLine ctx (.swrite 0 ((List.replicate (w * h) [r, g, b]).flatten))

/-- The steps of `FLUSH Ok` or `FLUSH Err` (R92, R132). -/
def flushSteps : Answer → List Instr
  | .ok => [.acq, .enc, .xfer, .xdone .ok, .llow, .lhigh, .rel]
  | .err => [.acq, .enc, .xfer, .xdone .err, .rel]

/-- `FLUSH Ok` or `FLUSH Err` as lines (R92). -/
def flushLines (r : Answer) : List Line := (flushSteps r).map seqLine

end Sys2Proof.Machine
end

