-- ==== Sys2Proof/Machine/Instances.lean ====
section
/-! DEFINITION. Several device instances (R8, R39, R200): each has its own state and no state is shared. -/

namespace Sys2Proof.Machine

/-- What a step of one instance gives for all of them. -/
inductive FleetResult where
  | next (fleet : List State)
  | fault (r : Fault)
  | refused (r : Refusal)
  | noSuchInstance
deriving DecidableEq, Repr

/-- Instance `k` takes a step; the others keep their state (R200, D35; DEDUCED, log 20, unsafe). All
instances have the three framing bytes of Config (DESIGN CHOICE, log 29, unsafe), and their unrecorded draws are the
same functions of each one's own counter, so that instances at equal counts draw equally (DESIGN CHOICE, log 30,
unsafe). -/
def fleetStep (fleet : List State) (k : Nat) : FleetResult :=
  match fleet[k]? with
  | none => .noSuchInstance
  | some s =>
    match step s with
    | .next t => .next (fleet.set k t)
    | .fault r => .fault r
    | .refused r => .refused r

end Sys2Proof.Machine
end

