-- ==== Sys2Proof/Machine/Panel.lean ====
section
/-! DEFINITION. The committed frame, which is what the panel shows, read from the trace (R136, R220). The panel is
outside the block (R20). -/

namespace Sys2Proof.Machine

/-- How far the flush under way has come towards its commit, as its own events tell. -/
inductive CommitStage where
  | quiet
  | sent (bs : List Byte)
  | accepted (bs : List Byte)
  | pulsedLow (bs : List Byte)
deriving DecidableEq, Repr

/-- The panel: the flush under way, and the frame committed last, `none` while unknown. -/
structure Panel where
  stage : CommitStage
  shown : Option (List Byte)
deriving DecidableEq, Repr

/-- Before any event the committed frame is unknown (R136). -/
def Panel.start : Panel := { stage := .quiet, shown := none }

/-- After `Xfer(bs)`: `XferResult(Ok)` is awaited. -/
def Panel.onResult (p : Panel) (r : Answer) : Panel :=
  match p.stage, r with
  | .sent bs, .ok => { p with stage := .accepted bs }
  | .sent _, .err => { p with stage := .quiet }
  | .quiet, _ => { p with stage := .quiet }
  | .accepted _, _ => { p with stage := .quiet }
  | .pulsedLow _, _ => { p with stage := .quiet }

/-- `Pin(LOW)` then `Pin(HIGH)` of an accepted transfer commits it. -/
def Panel.onPin (p : Panel) (l : Level) : Panel :=
  match p.stage, l with
  | .accepted bs, .low => { p with stage := .pulsedLow bs }
  | .pulsedLow bs, .high => { stage := .quiet, shown := some bs }
  | .accepted _, .high => { p with stage := .quiet }
  | .pulsedLow _, .low => { p with stage := .quiet }
  | .quiet, _ => { p with stage := .quiet }
  | .sent _, _ => { p with stage := .quiet }

/-- One event. Events of no flush leave the panel as it is (DEDUCED, log 27: R132 puts no other flush's event between;
safe). -/
def Panel.see (p : Panel) (e : Event) : Panel :=
  match e with
  | .xfer bs => { p with stage := .sent bs }
  | .xferResult r => p.onResult r
  | .pin l => p.onPin l
  | .attached _ _ => p
  | .attachFailed _ => p
  | .log _ => p
  | .detached => p

/-- The panel after a trace. -/
def panelAfter (trace : List Event) : Panel := trace.foldl Panel.see Panel.start

/-- The committed frame after a trace; `none` while unknown (R136). -/
def committed (trace : List Event) : Option (List Byte) := (panelAfter trace).shown

end Sys2Proof.Machine
end

