-- ==== Sys2Proof/Safety.lean ====
section
/-! DEFINITION. The terms claims use: the invariant of a block, a run with no refused input, runs of instructions, and
the counts R135 and R204 speak of. -/

namespace Sys2Proof.Machine

/-- No input of the run so far was REFUSEd. "No claim may rest on a run that contains one" (R38, R186). -/
def State.clean (s : State) : Prop := s.refused = false

/-- The bytes of a frame that are no data bytes stand as FRAMEINIT wrote them (R105, R123). -/
def framingIntact (w h : Nat) (f : List Host.Cell) : Prop :=
  ∀ i, i < frameLen w h → dataPos w h i = none → frameRead? f i = some (frameInitByte w h i)

/-- A frame has exactly the addresses `0 .. FRAME_LEN-1` (R54). -/
def frameDense (w h : Nat) (f : List Host.Cell) : Prop := f.map (fun c => c.1) = List.range (frameLen w h)

/-- What holds of a block in every reachable state. -/
structure State.Inv (s : State) : Prop where
  /-- `lock = 1 ⇔ phase ≠ P_IDLE` (R27). -/
  lock_phase : s.lock = true ↔ s.phase ≠ .idle
  /-- Outside ATTACHED and DETACHING nothing is allocated, driven, requested or in flight (R24, R25, R28, R29, R40, R130). -/
  absent : s.present = false →
    s.phase = .idle ∧ s.pending = false ∧ s.surf = [] ∧ s.frame = [] ∧ s.width = 0 ∧ s.height = 0 ∧
    s.latch = .undriven
  /-- The attached geometry is one ATTACH admits (R8, R152). -/
  geometry : s.present = true → geometryOk s.width.toNat s.height.toNat = true
  /-- The latch is high but between LLOW and LHIGH (R29, R127, R128). -/
  latch_level : s.present = true → s.latch = if s.phase = .lhigh then .low else .high
  /-- DETACH drops the request and no command sets it any more (R153). -/
  detaching_quiet : s.life = .detaching → s.pending = false
  /-- A context is blocked in DETACH exactly while the detach is under way (R150, R153). -/
  detacher_life : s.detacher.isSome = true ↔ s.life = .detaching
  /-- The surface is canonical and lies in SURF (R25, R50). -/
  surf_ok : memWf s.surf = true ∧ memBelow s.surfSize s.surf = true
  /-- The snapshot is a copy of such a surface (R31). -/
  snap_ok : memWf s.snap = true ∧ memBelow s.surfSize s.snap = true
  /-- The race sets are canonical and lie in SURF (R31, R64). -/
  wr_ok : raceWf s.wr = true ∧ memBelow s.surfSize s.wr = true
  /-- Outside P_ENC the encode-window state is empty (R31, R123). -/
  window_closed : s.phase ≠ .enc → s.snap = [] ∧ s.wr = []
  /-- The frame has exactly its addresses (R28, R54). -/
  frame_dense : s.present = true → frameDense s.width.toNat s.height.toNat s.frame
  /-- Only the data bytes ever change (R105). -/
  frame_framing : s.present = true → framingIntact s.width.toNat s.height.toNat s.frame
  /-- The bytes in flight are the bytes of the frame (R32, R124). -/
  in_flight : s.phase = .wait → s.inFlight = some (frameReadList s.frame 0 s.frameLen)

/-- Instructions run one after the other; `none` if one stops. -/
def runInstrs : List Instr → State → Option State
  | [], s => some s
  | i :: is, s =>
    match exec i s with
    | .next t => runInstrs is t
    | .fault _ => none
    | .refused _ => none

/-- An ACQ that is taken. -/
def acqTaken (i : Instr) (s : State) : Nat := if i = .acq ∧ s.acqEnabled = true then 1 else 0

/-- The commands that may set `pending` (R26): REQFL, SWRITE through its hook, MSTORE through its draw, refused and
illegal ones among them. -/
def requests : Instr → Nat
  | .reqfl => 1
  | .swrite _ _ => 1
  | .mstore _ _ => 1
  | .attach _ _ _ _ _ => 0
  | .detach => 0
  | .sread _ _ => 0
  | .status => 0
  | .fread _ _ => 0
  | .acq => 0
  | .enc => 0
  | .xfer => 0
  | .xdone _ => 0
  | .llow => 0
  | .lhigh => 0
  | .rel => 0
  | .dfin => 0
  | .luma _ _ _ => 0
  | .thresh _ => 0
  | .pack8 _ _ _ _ _ _ _ _ => 0
  | .laddr _ => 0
  | .frameinit _ _ => 0

/-- The command may write surface address `a` (R154, R156). -/
def writesAddress : Instr → Nat → Bool
  | .swrite off bs, a => decide (off.toNat ≤ a) && decide (a < off.toNat + bs.length)
  | .mstore off _, a => decide (a = off.toNat)
  | .attach _ _ _ _ _, _ => false
  | .detach, _ => false
  | .sread _ _, _ => false
  | .reqfl, _ => false
  | .status, _ => false
  | .fread _ _, _ => false
  | .acq, _ => false
  | .enc, _ => false
  | .xfer, _ => false
  | .xdone _, _ => false
  | .llow, _ => false
  | .lhigh, _ => false
  | .rel, _ => false
  | .dfin, _ => false
  | .luma _ _ _, _ => false
  | .thresh _, _ => false
  | .pack8 _ _ _ _ _ _ _ _, _ => false
  | .laddr _, _ => false
  | .frameinit _ _, _ => false

/-- The instruction makes a flush request from this state (R26): a REQFL, a SWRITE that is not refused, through its
hook, or an MSTORE that is not refused and draws its hook, each while attached (R154, R156, R157). -/
def State.makesRequest (s : State) : Instr → Bool
  | .reqfl => decide (s.life = .attached)
  | .swrite off bs => decide (s.life = .attached) && !rangeBad off.toNat bs.length s.surfSize
  | .mstore off _ => decide (s.life = .attached) && !rangeBad off.toNat 1 s.surfSize && s.hookDraw
  | .attach _ _ _ _ _ => false
  | .detach => false
  | .sread _ _ => false
  | .status => false
  | .fread _ _ => false
  | .acq => false
  | .enc => false
  | .xfer => false
  | .xdone _ => false
  | .llow => false
  | .lhigh => false
  | .rel => false
  | .dfin => false
  | .luma _ _ _ => false
  | .thresh _ => false
  | .pack8 _ _ _ _ _ _ _ _ => false
  | .laddr _ => false
  | .frameinit _ _ => false

/-- The flushes started along a run (R135). -/
def flushCount : List Instr → State → Nat
  | [], _ => 0
  | i :: is, s =>
    acqTaken i s +
      match exec i s with
      | .next t => flushCount is t
      | .fault _ => 0
      | .refused _ => 0

/-- The requests made along a run (R26, R135). -/
def requestsMade : List Instr → State → Nat
  | [], _ => 0
  | i :: is, s =>
    (s.makesRequest i).toNat +
      match exec i s with
      | .next t => requestsMade is t
      | .fault _ => 0
      | .refused _ => 0

/-- A burst is under way after an instruction: one was or begins, unless an ACQ is taken (R135). -/
def burstAfter (under : Bool) (i : Instr) (s : State) : Bool :=
  (under || s.makesRequest i) && decide (acqTaken i s = 0)

/-- The bursts that begin along a run, the maximal groups of requests made with no ACQ between them (R135); `under` says
that one is under way at its start. -/
def burstCount (under : Bool) : List Instr → State → Nat
  | [], _ => 0
  | i :: is, s =>
    (s.makesRequest i && !under).toNat +
      match exec i s with
      | .next t => burstCount (burstAfter under i s) is t
      | .fault _ => 0
      | .refused _ => 0

/-- The instructions of a run that may make a request, whatever becomes of them. -/
def requestCount (is : List Instr) : Nat := (is.map requests).sum

/-- The part of the state that is the hardware's, with the fields no rule of the hardware reads set to their reset
values: what host contexts were told, the mark, the rest of the listing, who issues, who waits, and the last function
value. The draw fields stay, since ATTACH, MSTORE and ENC read them. -/
def State.hardware (s : State) : State :=
  { s with refused := false, detacher := none, replies := [], listing := [], issuer := 0, fnOut := .nothing }

/-- The frame FRAMEINIT builds as the byte sequence of R84. -/
def frameSequence (w h : Nat) : List Byte :=
  [Config.cfgByte] ++
    ((List.range h).map fun y => [laddr y] ++ List.replicate (dataBytes w) 0x00 ++ [Config.trailerByte]).flatten ++
    [Config.termByte]

/-- How many events of a trace are this one. -/
def countEvent (e : Event) (trace : List Event) : Nat := trace.count e

end Sys2Proof.Machine
end

