-- ==== Sys2Proof/Certificates/Slice0/Obligations.lean ====
section
/-! DEFINITION. The statements for the provers. Each says what a rule of spec/ says of the model. -/

open Sys2Proof Sys2Proof.Machine

/-! ### Reset and the interleaving -/

/-- R40: after reset every field holds the value of the table; no storage, no transfer in flight. -/
def Obligations.ResetLeavesTheStatedValues : Prop :=
  State.reset.life = .uninit ∧ State.reset.phase = .idle ∧ State.reset.pending = false ∧
  State.reset.lock = false ∧
  (State.reset.present = false ∧ State.reset.surf = [] ∧ State.reset.frame = []) ∧
  (State.reset.width = 0 ∧ State.reset.height = 0) ∧ State.reset.latch = .undriven ∧
  State.reset.lastErr = .noError ∧ State.reset.errCount = 0 ∧ (State.reset.snap = [] ∧ State.reset.wr = []) ∧
  State.reset.trace = [] ∧ State.reset.inFlight = none

/-- R211: after reset no sequencer step is enabled, and with no host line to take (the model's choice of log 2) the
block does nothing. So it stays until ATTACH: in every UNINIT state the invariant rules in, no sequencer step is
enabled, and whatever is issued but ATTACH leaves the device UNINIT and idle, unrequested, undriven, without memories,
and emits no event. -/
def Obligations.NothingRunsAfterResetUntilAttach : Prop :=
  (∀ i : Instr, i.cls = .uop → State.reset.enabled i = false) ∧ step State.reset = .next State.reset ∧
  (∀ (s : State) (i : Instr), s.Inv → s.life = .uninit → i.cls = .uop → s.enabled i = false) ∧
  (∀ (s t : State) (i : Instr), s.Inv → s.life = .uninit →
    (∀ w h bpc pin xport, i ≠ .attach w h bpc pin xport) → exec i s = .next t →
      t.life = .uninit ∧ t.phase = .idle ∧ t.pending = false ∧ t.latch = .undriven ∧ t.surf = [] ∧ t.frame = [] ∧
      t.trace = s.trace)

/-- The invariant holds after reset. -/
def Obligations.ResetMeetsTheBlockInvariant : Prop := State.reset.Inv

/-- Every step keeps the invariant: R27, R29, R105 and the others it names hold in every reachable state. -/
def Obligations.EveryStepKeepsTheBlockInvariant : Prop :=
  ∀ s t : State, s.Inv → step s = .next t → t.Inv

/-- A step runs the decoded instruction: where the next line's context does not wait and its word decodes to an
instruction its agent may issue, the step is exec of it, from the state with the line taken off the listing, the line's
draws recorded and, for a host line, its context as the issuer (logs 2, 18). -/
def Obligations.AStepRunsTheDecodedInstruction : Prop :=
  ∀ (s : State) (l : Line) (rest : List Line) (i : Instr),
    s.listing = l :: rest → s.waits l.agent = false → decode l.word = .ok i → l.agent.mayIssue i.cls = true →
      step s = exec i { s with listing := rest, issuer := issuerOf l.agent s.issuer, recorded := l.draws }

/-- A word of the opcode table placed before the listing is run by the very next step. -/
def Obligations.APlacedTableWordIsRunNext : Prop :=
  ∀ (s : State) (nbits w : Nat) (i : Instr),
    decodeTableWord nbits w = some i →
      step (s.withFetchWord nbits w) =
        exec i { s with
          issuer := issuerOf (s.agentFor (encode i).op) s.issuer
          recorded := {} }

/-- Where no line can be taken, the sequencer takes its own enabled step, or, with none, nothing happens; the only
enabled step it may be left without is XDONE, when the transport never answers (R120, R122, R131; logs 2, 9). -/
def Obligations.TheSequencerMovesByItself : Prop :=
  ∀ s : State,
    (s.listing = [] ∨ ∃ l rest, s.listing = l :: rest ∧ s.waits l.agent = true) →
      (∀ i, s.ownStep = some i →
        i.cls = .uop ∧ s.enabled i = true ∧ step s = exec i { s with recorded := {}, draws := s.draws + 1 }) ∧
      (s.ownStep = none →
        step s = .next s ∧
        ∀ i : Instr, i.cls = .uop → s.enabled i = true → s.phase = .wait ∧ Config.xferOracle s.draws = none)

/-- R88, R185: a host-issued opcode that is not one of 0x01–0x08 returns IllegalCommand, emits nothing and changes
nothing but `last_err` (and, the model's own, the listing's bookkeeping and the reply). -/
def Obligations.AnIllegalOpcodeReturnsIllegalCommand : Prop :=
  ∀ (s : State) (c : Nat) (word : CmdWord) (d : Draws) (rest : List Line),
    s.listing = { agent := .host c, word := word, draws := d } :: rest → s.detacher ≠ some c →
    ¬ (0x01 ≤ word.op.toNat ∧ word.op.toNat ≤ 0x08) →
      step s = .next { s with
        listing := rest
        issuer := c
        recorded := d
        lastErr := .illegalCommand
        replies := s.replies ++ [{ ctx := c, code := .illegalCommand, data := .nothing }] }

/-! ### Encoding -/

/-- Encoding and decoding agree: every instruction's word decodes to it with every operand, an opcode R86 does not
list is reserved, and a word decodes to an instruction exactly when its opcode is listed and the instruction's word is
the opcode with the operands it defines (R86–R90). -/
def Obligations.DecodeAndEncodeAgree : Prop :=
  (∀ i : Instr, decode (encode i) = .ok i) ∧
  (∀ c : CmdWord, listedOpcode c.op = false → decode c = .error (.reserved c.op)) ∧
  (∀ (c : CmdWord) (i : Instr),
    decode c = .ok i ↔ listedOpcode c.op = true ∧ encode i = { op := c.op, args := operandsOf c.op c.args })

/-- Some command words written out from R86 and R87 decode to what they stand for. -/
def Obligations.WrittenOutWordsDecode : Prop :=
  decode ⟨0x01, { w := 128, h := 64, bpc := 8, pin := ⟨3, true⟩, xport := ⟨4, true⟩ }⟩ =
    .ok (.attach 128 64 8 ⟨3, true⟩ ⟨4, true⟩) ∧
  decode ⟨0x03, { off := 24, bs := [0x00, 0xFF, 0x09] }⟩ = .ok (.swrite 24 [0x00, 0xFF, 0x09]) ∧
  decode ⟨0x13, { r := .err }⟩ = .ok (.xdone .err) ∧
  decode ⟨0x20, { red := 255, green := 1, blue := 17 }⟩ = .ok (.luma 255 1 17) ∧
  decode ⟨0x18, {}⟩ = .error (.reserved 0x18)

/-! ### Datapath functions -/

/-- R100: LUMA gives `R div 3 + G div 2 + B div 9`, on Nat, each term truncated; it raises nothing and has no other
effect. (That exec leaves the value in `fnOut` is the model's choice, log 3.) -/
def Obligations.LumaGivesTheTruncatedSum : Prop :=
  (∀ (r g b : Byte) (s : State),
    exec (.luma r g b) s = .next { s with fnOut := .gray (r.toNat / 3 + g.toNat / 2 + b.toNat / 9) }) ∧
  (luma 0 0 0 = 0 ∧ luma 255 255 255 = 240 ∧ luma 0 255 0 = 127 ∧ luma 2 1 8 = 0 ∧ luma 255 0 0 = 85) ∧
  (∀ r g b : Byte, luma r g b ≤ 240)

/-- R101: the three quotients lie in 0..85, 0..127, 0..28, the sum in 0..240, and LUMA is monotone in each channel. -/
def Obligations.LumaIsBoundedAndMonotone : Prop :=
  (∀ r g b : Byte, r.toNat / 3 ≤ 85 ∧ g.toNat / 2 ≤ 127 ∧ b.toNat / 9 ≤ 28 ∧ luma r g b ≤ 240) ∧
  (∀ r g b r' g' b' : Byte, r.toNat ≤ r'.toNat → g.toNat ≤ g'.toNat → b.toNat ≤ b'.toNat →
    luma r g b ≤ luma r' g' b')

/-- R102: THRESH is on exactly from 128, over its domain 0..240; it has no other effect. (That exec leaves
the value in `fnOut` is the model's choice, log 3.) -/
def Obligations.ThreshIsOnFrom128 : Prop :=
  (∀ (gray : Byte) (s : State), gray.toNat ≤ 240 →
    exec (.thresh gray) s = .next { s with fnOut := .bit (decide (128 ≤ gray.toNat)) }) ∧
  (thresh 127 = false ∧ thresh 128 = true ∧ thresh 0 = false ∧ thresh 240 = true) ∧
  (thresh (luma 135 135 135) = false ∧ thresh (luma 136 136 136) = true ∧
   thresh (luma 0 255 8) = false ∧ thresh (luma 0 255 9) = true ∧
   thresh (luma 2 254 0) = false ∧ thresh (luma 3 254 0) = true ∧
   thresh (luma 255 255 255) = true ∧ thresh (luma 0 0 0) = false)

/-- R103, R82: PACK8 is the sum of `bj * 2^(7-j)`, bit `7-j` is `bj`; it has no other effect. (That exec leaves
the value in `fnOut` is the model's choice, log 3.) -/
def Obligations.Pack8PutsTheFirstPixelInTheTopBit : Prop :=
  ∀ (b0 b1 b2 b3 b4 b5 b6 b7 : Bool) (s : State), ∃ v : Byte,
    exec (.pack8 b0 b1 b2 b3 b4 b5 b6 b7) s = .next { s with fnOut := .byte v } ∧
    v.toNat = b0.toNat * 128 + b1.toNat * 64 + b2.toNat * 32 + b3.toNat * 16 + b4.toNat * 8 + b5.toNat * 4 +
      b6.toNat * 2 + b7.toNat ∧
    (v.getLsbD 7 = b0 ∧ v.getLsbD 6 = b1 ∧ v.getLsbD 5 = b2 ∧ v.getLsbD 4 = b3 ∧ v.getLsbD 3 = b4 ∧
     v.getLsbD 2 = b5 ∧ v.getLsbD 1 = b6 ∧ v.getLsbD 0 = b7)

/-- R83, R104: over its domain, bit `7-j` of LADDR is bit `j` of the 1-based line number, the value is never 0, no two
lines share one; it has no other effect. Line 255, outside the domain, completes too, with a free value (log 12).
(That exec leaves the value in `fnOut` is the model's choice, log 3.) -/
def Obligations.LaddrReversesTheLineNumber : Prop :=
  (∀ (y : Byte) (s : State), exec (.laddr y) s = .next { s with fnOut := .byte (laddr y.toNat) }) ∧
  (∀ y : Nat, y ≤ 254 →
    (∀ j, j < 8 → (laddr y).getLsbD (7 - j) = (y + 1).testBit j) ∧ laddr y ≠ 0) ∧
  (∀ y y' : Nat, y ≤ 254 → y' ≤ 254 → laddr y = laddr y' → y = y')

/-- R84, R105: FRAMEINIT gives the config byte, then for each line its address byte, data bytes 0x00 and the trailer,
then the terminator, FRAME_LEN bytes in all; it has no other effect. (That exec leaves the
bytes in `fnOut` is the model's choice, log 3. That the sequence holds outside the geometries of R152 too, widths that
are no multiple of 8 and heights of 0 among them, where R105 and R108 promise nothing, is the model's choice, log 13. Where `H > 255` the address bytes beyond line 254
are free values, log 12.) -/
def Obligations.FrameinitGivesTheFrameSequence : Prop :=
  ∀ (w h : Word) (s : State),
    exec (.frameinit w h) s = .next { s with fnOut := .bytes (frameSequence w.toNat h.toNat) } ∧
    (frameSequence w.toNat h.toNat).length = 1 + h.toNat * (w.toNat / 8 + 2) + 1

/-- R54: an address of the frame is the config byte, the address byte, a data byte or the trailer of one line, or the
terminator, and of these exactly one: data addresses belong to one line and byte, the place in a line is unique, and no
byte of a line lies at address 0 or at FRAME_LEN - 1 = 1 + H*(DB+2). -/
def Obligations.EveryFrameAddressHasOnePlace : Prop :=
  (∀ w h i : Nat, i < frameLen w h →
    (i = 0 ∨ (∃ y, y < h ∧ i = lineBase w y) ∨ (∃ y k, y < h ∧ k < w / 8 ∧ i = lineBase w y + 1 + k) ∨
      (∃ y, y < h ∧ i = lineBase w y + 1 + w / 8) ∨ i = frameLen w h - 1) ∧
    (∀ y k, dataPos w h i = some (y, k) ↔ y < h ∧ k < w / 8 ∧ i = lineBase w y + 1 + k) ∧
    (∀ y k y' k', y < h → y' < h → k ≤ w / 8 + 1 → k' ≤ w / 8 + 1 →
      i = lineBase w y + k → i = lineBase w y' + k' → y = y' ∧ k = k')) ∧
  (∀ w h y k : Nat, y < h → k ≤ w / 8 + 1 →
    lineBase w y + k ≠ 0 ∧ lineBase w y + k ≠ frameLen w h - 1 ∧ lineBase w y + k < frameLen w h) ∧
  (∀ w h : Nat, frameLen w h - 1 = 1 + h * (w / 8 + 2) ∧ frameLen w h - 1 ≠ 0)

/-- R55: pixel `(x, y)`'s on/off bit, which is THRESH(LUMA) of the three surface bytes at `3*(W*y + x)`, is bit
`7 - (x mod 8)` of frame byte `lb(y) + 1 + (x div 8)`, whatever that byte held before. -/
def Obligations.APixelsBitIsAtItsPlace : Prop :=
  ∀ (img : Nat → Byte) (w h x y : Nat) (v : Byte), w % 8 = 0 → x < w → y < h →
    (encodedByte img w h (1 + y * (w / 8 + 2) + 1 + x / 8) v).getLsbD (7 - x % 8) =
      decide (128 ≤ (img (3 * (w * y + x))).toNat / 3 + (img (3 * (w * y + x) + 1)).toNat / 2 +
        (img (3 * (w * y + x) + 2)).toNat / 9)

/-- R107: ENCODE of one byte depends on its own eight pixels' bytes only. -/
def Obligations.ADataByteDependsOnItsOwnPixels : Prop :=
  ∀ (img img' : Nat → Byte) (w y k : Nat),
    (∀ a, 3 * (w * y + 8 * k) ≤ a → a < 3 * (w * y + 8 * k) + 24 → img a = img' a) →
      encodeByte img w y k = encodeByte img' w y k

/-! ### Sequencer steps -/

/-- R120: at most one sequencer step is enabled at any state (XDONE counted once, whatever the answer). -/
def Obligations.AtMostOneSequencerStepIsEnabled : Prop :=
  ∀ (s : State) (i j : Instr), i.cls = .uop → j.cls = .uop → s.enabled i = true → s.enabled j = true →
    (encode i).op = (encode j).op

/-- A sequencer step that is not enabled is not taken: nothing changes (the model's reading of R12 and R120, log 5). -/
def Obligations.AnUnenabledStepIsNotTaken : Prop :=
  ∀ (i : Instr) (s : State), i.cls = .uop → s.enabled i = false → exec i s = .next s

/-- R121: ACQ, enabled exactly when attached, idle and pending; it consumes the request, takes the lock and the
snapshot and opens the encode window. -/
def Obligations.AcqStartsAFlush : Prop :=
  (∀ s : State, s.enabled .acq = true ↔ s.life = .attached ∧ s.phase = .idle ∧ s.pending = true) ∧
  (∀ s : State, s.life = .attached → s.phase = .idle → s.pending = true →
    exec .acq s = .next { s with pending := false, lock := true, snap := s.surf, wr := [], phase := .enc })

/-- R123, R64: ENC rewrites every data byte with the encoding of an image whose every byte is one of the candidates,
clears the window and goes to P_XFER; nothing else changes but the model's draw counter. Which candidate is drawn is a
free value: the statement holds for every choice. -/
def Obligations.EncRewritesTheDataBytes : Prop :=
  ∀ s : State, s.phase = .enc →
    ∃ (img : Nat → Byte) (f : List Host.Cell),
      (∀ a, img a = memRead s.snap a ∨ img a ∈ raceAt s.wr a) ∧
      exec .enc s = .next { s with frame := f, snap := [], wr := [], phase := .xfer, draws := s.draws + 1 } ∧
      (∀ y k, y < s.height.toNat → k < s.width.toNat / 8 →
        (frameRead? s.frame (lineBase s.width.toNat y + 1 + k)).isSome = true →
        frameRead? f (lineBase s.width.toNat y + 1 + k) = some (encodeByte img s.width.toNat y k)) ∧
      (∀ i, (∀ y k, y < s.height.toNat → k < s.width.toNat / 8 → i ≠ lineBase s.width.toNat y + 1 + k) →
        frameRead? f i = frameRead? s.frame i) ∧
      f.map (fun c => c.1) = s.frame.map fun c => c.1

/-- R64: every outcome of the race is a run: for any image of candidates some draws make ENC encode it. -/
def Obligations.EveryRaceOutcomeIsAdmitted : Prop :=
  ∀ (s : State) (img : Nat → Byte), s.phase = .enc →
    (∀ a, a < s.surfSize → img a = memRead s.snap a ∨ img a ∈ raceAt s.wr a) →
      ∃ (d : Draws) (t : State),
        exec .enc { s with recorded := d } = .next t ∧
        ∀ y k, y < s.height.toNat → k < s.width.toNat / 8 →
          (frameRead? s.frame (lineBase s.width.toNat y + 1 + k)).isSome = true →
          frameRead? t.frame (lineBase s.width.toNat y + 1 + k) = some (encodeByte img s.width.toNat y k)

/-- R65: whatever host commands run between ACQ and ENC, at every address none of them writes there is one candidate
only, the byte the surface held at ACQ, so ENC reads it; and ENC then completes, with the data byte of every eight
pixels none of them writes encoded from the surface as it stood at ACQ. -/
def Obligations.AWriteBeforeAcquisitionIsEncoded : Prop :=
  ∀ (s t : State) (is : List Instr), s.acqEnabled = true → (∀ i ∈ is, i.cls = .hcmd) →
    runInstrs (.acq :: is) s = some t →
      t.phase = .enc ∧
      (∀ a, (∀ i ∈ is, writesAddress i a = false) →
        raceAt t.wr a = [] ∧ memRead t.snap a = memRead s.surf a ∧ t.encImage a = memRead s.surf a) ∧
      ∃ u : State, exec .enc t = .next u ∧
        ∀ y k, y < s.height.toNat → k < s.width.toNat / 8 →
          (frameRead? s.frame (lineBase s.width.toNat y + 1 + k)).isSome = true →
          (∀ a, 3 * (s.width.toNat * y + 8 * k) ≤ a → a < 3 * (s.width.toNat * y + 8 * k) + 24 →
            ∀ i ∈ is, writesAddress i a = false) →
          frameRead? u.frame (lineBase s.width.toNat y + 1 + k) =
            some (encodeByte (memRead s.surf) s.width.toNat y k)

/-- R124, R58: XFER hands the transport the whole frame in address order. In a state the invariant rules in, that is
FRAME_LEN bytes, byte `i` the frame's byte `i`. -/
def Obligations.XferSendsTheWholeFrame : Prop :=
  ∀ s : State, s.phase = .xfer →
    ∃ bs : List Byte,
      exec .xfer s = .next { s with trace := s.trace ++ [.xfer bs], phase := .wait } ∧
      (s.Inv → bs.length = 1 + s.height.toNat * (s.width.toNat / 8 + 2) + 1 ∧
        ∀ i, i < bs.length → bs[i]? = frameRead? s.frame i)

/-- R125: XDONE Ok, opcode 0x13, enabled exactly in P_WAIT (that the answer may be Ok there is the model's reading, log
22); it emits XferResult(Ok) and goes to P_LLOW, and nothing
else changes. -/
def Obligations.XdoneOkGoesToTheLatch : Prop :=
  (∀ s : State, (encode (.xdone .ok)).op = 0x13 ∧ (s.enabled (.xdone .ok) = true ↔ s.phase = .wait)) ∧
  ∀ s : State, s.phase = .wait →
    exec (.xdone .ok) s = .next { s with trace := s.trace ++ [.xferResult .ok], phase := .llow }

/-- R183: XDONE with the answer Err raises TransportFailure: it records code 3, counts it (saturating), emits Log(3) and
goes on to REL without a latch pulse; nothing else changes, so the device stays attached and usable. -/
def Obligations.XdoneErrRecordsAFailureAndSkipsTheLatch : Prop :=
  ∀ s : State, s.phase = .wait →
    exec (.xdone .err) s = .next { s with
      trace := s.trace ++ [.xferResult .err, .log .transportFailure]
      lastErr := .transportFailure
      errCount := BitVec.ofNat 32 (min (s.errCount.toNat + 1) 0xFFFFFFFF)
      phase := .rel }

/-- R127, R128: the latch pulse, low then high: the opcodes, the enabling conditions, the level driven, the event, the
next phase; nothing else changes. -/
def Obligations.TheLatchPulseIsLowThenHigh : Prop :=
  (∀ s : State, (encode .llow).op = 0x14 ∧ (encode .lhigh).op = 0x15 ∧
    (s.enabled .llow = true ↔ s.phase = .llow) ∧ (s.enabled .lhigh = true ↔ s.phase = .lhigh)) ∧
  (∀ s : State, s.phase = .llow →
    exec .llow s = .next { s with latch := .low, trace := s.trace ++ [.pin .low], phase := .lhigh }) ∧
  (∀ s : State, s.phase = .lhigh →
    exec .lhigh s = .next { s with latch := .high, trace := s.trace ++ [.pin .high], phase := .rel })

/-- R129: REL, opcode 0x16, enabled exactly in P_REL, releases the lock and goes to P_IDLE, and nothing else changes;
with a request outstanding and the device attached ACQ is enabled at once, and with the device detaching DFIN is. -/
def Obligations.RelReleasesTheLock : Prop :=
  (∀ s : State, (encode .rel).op = 0x16 ∧ (s.enabled .rel = true ↔ s.phase = .rel)) ∧
  ∀ s : State, s.phase = .rel →
    exec .rel s = .next { s with lock := false, phase := .idle } ∧
    (s.life = .attached → s.pending = true → { s with lock := false, phase := .idle }.enabled .acq = true) ∧
    (s.life = .detaching → { s with lock := false, phase := .idle }.enabled .dfin = true)

/-- R130: DFIN releases both memories, undrives the latch, clears the geometry, emits Detached, and the context
blocked in DETACH, if any, gets result 0. -/
def Obligations.DfinCompletesTheDetach : Prop :=
  ∀ s : State, s.life = .detaching → s.phase = .idle →
    ∃ t : State, exec .dfin s = .next t ∧
      t = { s with
        surf := []
        frame := []
        pending := false
        latch := .undriven
        width := 0
        height := 0
        life := .detached
        trace := s.trace ++ [.detached]
        detacher := none
        replies := t.replies } ∧
      (∀ c, s.detacher = some c → t.replies = s.replies ++ [{ ctx := c, code := .noError, data := .nothing }]) ∧
      (s.detacher = none → t.replies = s.replies)

/-- R137: the transition table. The phase changes only along a row of it (in a state the invariant rules in), and
each row's step goes where the row says. -/
def Obligations.ThePhaseFollowsTheTransitionTable : Prop :=
  (∀ (i : Instr) (s t : State), s.Inv → exec i s = .next t → t.phase ≠ s.phase →
    (s.phase = .idle ∧ i = .acq ∧ s.life = .attached ∧ s.pending = true ∧ t.phase = .enc) ∨
    (s.phase = .enc ∧ i = .enc ∧ t.phase = .xfer) ∨ (s.phase = .xfer ∧ i = .xfer ∧ t.phase = .wait) ∨
    (s.phase = .wait ∧ i = .xdone .ok ∧ t.phase = .llow) ∨ (s.phase = .wait ∧ i = .xdone .err ∧ t.phase = .rel) ∨
    (s.phase = .llow ∧ i = .llow ∧ t.phase = .lhigh) ∨ (s.phase = .lhigh ∧ i = .lhigh ∧ t.phase = .rel) ∨
    (s.phase = .rel ∧ i = .rel ∧ t.phase = .idle)) ∧
  (∀ s : State,
    (s.phase = .idle → s.life = .attached → s.pending = true → ∃ t, exec .acq s = .next t ∧ t.phase = .enc) ∧
    (s.phase = .enc → ∃ t, exec .enc s = .next t ∧ t.phase = .xfer) ∧
    (s.phase = .xfer → ∃ t, exec .xfer s = .next t ∧ t.phase = .wait) ∧
    (s.phase = .wait → ∃ t, exec (.xdone .ok) s = .next t ∧ t.phase = .llow) ∧
    (s.phase = .wait → ∃ t, exec (.xdone .err) s = .next t ∧ t.phase = .rel) ∧
    (s.phase = .llow → ∃ t, exec .llow s = .next t ∧ t.phase = .lhigh) ∧
    (s.phase = .lhigh → ∃ t, exec .lhigh s = .next t ∧ t.phase = .rel) ∧
    (s.phase = .rel → ∃ t, exec .rel s = .next t ∧ t.phase = .idle) ∧
    (s.phase = .idle → s.life = .detaching → ∃ t, exec .dfin s = .next t ∧ t.phase = .idle ∧ t.life = .detached))

/-- R27: ACQ sets the lock, REL clears it, nothing else touches it, and it is 1 exactly outside P_IDLE. -/
def Obligations.OnlyAcqAndRelTouchTheLock : Prop :=
  (∀ s : State, s.acqEnabled = true → ∃ t, exec .acq s = .next t ∧ t.lock = true) ∧
  (∀ s : State, s.phase = .rel → ∃ t, exec .rel s = .next t ∧ t.lock = false) ∧
  (∀ (i : Instr) (s t : State), s.Inv → exec i s = .next t → i ≠ .acq → i ≠ .rel → t.lock = s.lock) ∧
  (∀ s : State, s.Inv → (s.lock = true ↔ s.phase ≠ .idle))

/-! ### Host commands. Where they return their results (`replies`, `issuer`) is the model's choice, logs 17 and 18. -/

/-- R41, R151: a successful ATTACH leaves every field as R41 says, emits Pin(HIGH) then Attached(W, H), and returns 0.
The allocator's success is the premise: a draw of the environment (log 6). -/
def Obligations.ASuccessfulAttachInitialisesTheDevice : Prop :=
  ∀ (w h : Word) (pin xport : Handle) (s : State),
    s.life = .uninit → w.toNat % 8 = 0 → 8 ≤ w.toNat → 1 ≤ h.toNat → h.toNat ≤ 255 →
    pin.valid = true → xport.valid = true → s.allocDraw = true →
      ∃ f : List Host.Cell,
        exec (.attach w h 8 pin xport) s = .next { s with
          life := .attached
          phase := .idle
          pending := false
          lock := false
          surf := []
          frame := f
          width := w
          height := h
          latch := .high
          lastErr := .noError
          errCount := 0
          snap := []
          wr := []
          trace := s.trace ++ [.pin .high, .attached w h]
          replies := s.replies ++ [{ ctx := s.issuer, code := .noError, data := .nothing }]
          draws := s.draws + 1 } ∧
        (∀ a, memRead [] a = 0) ∧
        f.map (fun c => c.1) = List.range (1 + h.toNat * (w.toNat / 8 + 2) + 1) ∧
        f.map (fun c => c.2) = frameSequence w.toNat h.toNat

/-- R152, R188: in UNINIT, a geometry ATTACH does not admit is refused: the mark is set and nothing else changes. -/
def Obligations.AttachRefusesOtherGeometries : Prop :=
  ∀ (w h : Word) (bpc : Byte) (pin xport : Handle) (s : State), s.life = .uninit →
    (bpc ≠ 8 ∨ w.toNat = 0 ∨ w.toNat % 8 ≠ 0 ∨ h.toNat = 0 ∨ 255 < h.toNat) →
      exec (.attach w h bpc pin xport) s = .next { s with refused := true }

/-- R181, R182, R188: with an admitted geometry, an invalid handle gives ConfigurationError before any allocation, and
otherwise a failed allocation AllocationFailure; nothing stays allocated. -/
def Obligations.AFailedAttachReportsAndHoldsNothing : Prop :=
  (∀ (w h : Word) (pin xport : Handle) (s : State),
    s.life = .uninit → geometryOk w.toNat h.toNat = true → (pin.valid = false ∨ xport.valid = false) →
      exec (.attach w h 8 pin xport) s = .next { s with
        lastErr := .configurationError
        trace := s.trace ++ [.attachFailed .configurationError]
        replies := s.replies ++ [{ ctx := s.issuer, code := .configurationError, data := .nothing }] }) ∧
  (∀ (w h : Word) (pin xport : Handle) (s : State),
    s.life = .uninit → geometryOk w.toNat h.toNat = true → pin.valid = true → xport.valid = true →
    s.allocDraw = false →
      exec (.attach w h 8 pin xport) s = .next { s with
        lastErr := .allocationFailure
        trace := s.trace ++ [.attachFailed .allocationFailure]
        replies := s.replies ++ [{ ctx := s.issuer, code := .allocationFailure, data := .nothing }]
        draws := s.draws + 1 })

/-- R153: DETACH while attached, in any phase, goes to DETACHING, drops the request and blocks its context; no result
is returned yet. -/
def Obligations.DetachDropsTheRequestAndBlocks : Prop :=
  ∀ s : State, s.life = .attached →
    exec .detach s = .next { s with life := .detaching, pending := false, detacher := some s.issuer }

/-- R154, R64, R66: a legal SWRITE writes its bytes and no others, adds them to the race sets exactly in P_ENC,
requests a flush exactly when attached, and returns 0. The bytes stored to are `off .. off + n - 1`. -/
def Obligations.SwriteWritesItsBytesAndRequests : Prop :=
  ∀ (off : Word) (bs : List Byte) (s : State),
    (s.life = .attached ∨ s.life = .detaching) → memWf s.surf = true → bs ≠ [] →
    off.toNat + bs.length ≤ s.width.toNat * s.height.toNat * 3 →
      ∃ m r : List Host.Cell,
        exec (.swrite off bs) s = .next { s with
          surf := m
          wr := r
          pending := decide (s.life = .attached) || s.pending
          replies := s.replies ++ [{ ctx := s.issuer, code := .noError, data := .nothing }] } ∧
        (∀ k, k < bs.length → memRead m (off.toNat + k) = bs.getD k 0) ∧
        (∀ a, (a < off.toNat ∨ off.toNat + bs.length ≤ a) → memRead m a = memRead s.surf a) ∧
        (s.phase ≠ .enc → r = s.wr) ∧
        (s.phase = .enc → ∀ a v, v ∈ raceAt r a ↔
          v ∈ raceAt s.wr a ∨ (off.toNat ≤ a ∧ bs[a - off.toNat]? = some v))

/-- R156: a legal MSTORE stores its one byte, races as SWRITE does, and requests a flush exactly when the hook is drawn
1 and the device is attached; the draw is a free value (log 7). -/
def Obligations.MstoreStoresOneByteAndMayRequest : Prop :=
  ∀ (off : Word) (v : Byte) (s : State),
    (s.life = .attached ∨ s.life = .detaching) → memWf s.surf = true →
    off.toNat < s.width.toNat * s.height.toNat * 3 →
      ∃ m r : List Host.Cell,
        exec (.mstore off v) s = .next { s with
          surf := m
          wr := r
          pending := (s.hookDraw && decide (s.life = .attached)) || s.pending
          replies := s.replies ++ [{ ctx := s.issuer, code := .noError, data := .nothing }]
          draws := s.draws + 1 } ∧
        (∀ a, memRead m a = if a = off.toNat then v else memRead s.surf a) ∧
        (s.phase ≠ .enc → r = s.wr) ∧
        (s.phase = .enc → ∀ a u, u ∈ raceAt r a ↔ u ∈ raceAt s.wr a ∨ (a = off.toNat ∧ u = v))

/-- R155: a legal SREAD returns the bytes the surface holds and has no side effect. -/
def Obligations.SreadReturnsTheSurfaceBytes : Prop :=
  ∀ (off n : Word) (s : State),
    (s.life = .attached ∨ s.life = .detaching) → n ≠ 0 →
    off.toNat + n.toNat ≤ s.width.toNat * s.height.toNat * 3 →
      ∃ bs : List Byte,
        exec (.sread off n) s = .next { s with
          replies := s.replies ++ [{ ctx := s.issuer, code := .noError, data := .bytes bs }] } ∧
        bs.length = n.toNat ∧ ∀ k, k < n.toNat → bs[k]? = some (memRead s.surf (off.toNat + k))

/-- R159: a legal FREAD returns the frame's bytes and has no side effect; where the frame has all its bytes, one byte
per address. -/
def Obligations.FreadReturnsTheFrameBytes : Prop :=
  ∀ (off n : Word) (s : State),
    (s.life = .attached ∨ s.life = .detaching) → n ≠ 0 →
    off.toNat + n.toNat ≤ 1 + s.height.toNat * (s.width.toNat / 8 + 2) + 1 →
      ∃ bs : List Byte,
        exec (.fread off n) s = .next { s with
          replies := s.replies ++ [{ ctx := s.issuer, code := .noError, data := .bytes bs }] } ∧
        (s.Inv → bs.length = n.toNat ∧ ∀ k, k < n.toNat → bs[k]? = frameRead? s.frame (off.toNat + k))

/-- R157: REQFL sets `pending` when attached, is a no-op returning 0 in DETACHING and DETACHED, and IllegalState in
UNINIT. -/
def Obligations.ReqflRequestsOrDoesNothing : Prop :=
  ∀ s : State,
    (s.life = .attached → exec .reqfl s = .next { s with
      pending := true, replies := s.replies ++ [{ ctx := s.issuer, code := .noError, data := .nothing }] }) ∧
    ((s.life = .detaching ∨ s.life = .detached) → exec .reqfl s = .next { s with
      replies := s.replies ++ [{ ctx := s.issuer, code := .noError, data := .nothing }] }) ∧
    (s.life = .uninit → exec .reqfl s = .next { s with
      lastErr := .illegalState
      replies := s.replies ++ [{ ctx := s.issuer, code := .illegalState, data := .nothing }] })

/-- R36, R158: STATUS returns the four words of the status record, each field at its bits and reserved bits 0, and
changes nothing else. -/
def Obligations.StatusReturnsTheStatusRecord : Prop :=
  ∀ s : State, ∃ w0 w1 w2 w3 : Word,
    exec .status s = .next { s with
      replies := s.replies ++ [{ ctx := s.issuer, code := .noError, data := .words [w0, w1, w2, w3] }] } ∧
    w0.extractLsb 2 0 = (match s.life with
      | .uninit => 0
      | .attached => if s.phase = .idle then 1 else 2
      | .detaching => 3
      | .detached => 4) ∧
    w0.getLsbD 3 = false ∧
    w0.extractLsb 6 4 = (match s.phase with
      | .idle => 0 | .enc => 1 | .xfer => 2 | .wait => 3 | .llow => 4 | .lhigh => 5 | .rel => 6) ∧
    w0.getLsbD 7 = false ∧ w0.getLsbD 8 = s.pending ∧
    w0.extractLsb 10 9 = (match s.latch with | .low => 0 | .high => 1 | .undriven => 2) ∧
    w0.getLsbD 11 = s.lock ∧
    w0.extractLsb 14 12 = (match s.lastErr with
      | .noError => 0 | .allocationFailure => 1 | .configurationError => 2 | .transportFailure => 3
      | .illegalState => 4 | .illegalCommand => 5) ∧
    w0.extractLsb 31 15 = 0 ∧
    w1 = s.errCount ∧
    w2 = (if s.life = .attached ∨ s.life = .detaching then s.width else 0) ∧
    w3 = (if s.life = .attached ∨ s.life = .detaching then s.height else 0)

/-- R160, R184: where the table says IS, the command returns IllegalState and changes nothing but `last_err`. -/
def Obligations.ACommandInTheWrongStateIsIllegalState : Prop :=
  ∀ (i : Instr) (s : State),
    ((∃ w h bpc pin xport, i = .attach w h bpc pin xport) ∧ s.life ≠ .uninit) ∨
    (i = .detach ∧ s.life ≠ .attached) ∨
    (((∃ off bs, i = .swrite off bs) ∨ (∃ off n, i = .sread off n) ∨ (∃ off v, i = .mstore off v) ∨
      (∃ off n, i = .fread off n)) ∧ (s.life = .uninit ∨ s.life = .detached)) ∨
    (i = .reqfl ∧ s.life = .uninit) →
      exec i s = .next { s with
        lastErr := .illegalState
        replies := s.replies ++ [{ ctx := s.issuer, code := .illegalState, data := .nothing }] }

/-- R63, R186: in ATTACHED or DETACHING, an empty or out-of-range access is refused: the mark is set, nothing else
changes. -/
def Obligations.AnAccessOutOfRangeIsRefused : Prop :=
  ∀ (off n : Word) (v : Byte) (bs : List Byte) (s : State), (s.life = .attached ∨ s.life = .detaching) →
    ((bs = [] ∨ s.width.toNat * s.height.toNat * 3 < off.toNat + bs.length) →
      exec (.swrite off bs) s = .next { s with refused := true }) ∧
    ((n = 0 ∨ s.width.toNat * s.height.toNat * 3 < off.toNat + n.toNat) →
      exec (.sread off n) s = .next { s with refused := true }) ∧
    (s.width.toNat * s.height.toNat * 3 ≤ off.toNat → exec (.mstore off v) s = .next { s with refused := true }) ∧
    ((n = 0 ∨ 1 + s.height.toNat * (s.width.toNat / 8 + 2) + 1 < off.toNat + n.toNat) →
      exec (.fread off n) s = .next { s with refused := true })

/-! ### Rules about the whole machine -/

/-- No instruction ever stops the machine: not in any state, not on any operand (R187, R191, E6). That a refused input
and a step that is not enabled answer a next state is the model's choice, logs 4 and 5; so is that LADDR of line 255,
FRAMEINIT of other geometries and THRESH above 240, outside the domains R187 speaks of, complete, logs 12, 13 and 14. -/
def Obligations.EveryInstructionAnswersANextState : Prop :=
  ∀ (i : Instr) (s : State), ∃ t, exec i s = .next t

/-- R23, R24, R25, R28, R29, R30, R68: who may change the geometry, the lifecycle state, the frame, the latch, the
surface and the error count, each field by itself. -/
def Obligations.OnlyTheNamedStepsChangeTheDevice : Prop :=
  ∀ (i : Instr) (s t : State), exec i s = .next t →
    ((t.width ≠ s.width ∨ t.height ≠ s.height) → (∃ w h bpc pin xport, i = .attach w h bpc pin xport) ∨ i = .dfin) ∧
    (t.life ≠ s.life → (∃ w h bpc pin xport, i = .attach w h bpc pin xport) ∨ i = .detach ∨ i = .dfin) ∧
    (t.frame ≠ s.frame → (∃ w h bpc pin xport, i = .attach w h bpc pin xport) ∨ i = .enc ∨ i = .dfin) ∧
    (t.latch ≠ s.latch →
      (∃ w h bpc pin xport, i = .attach w h bpc pin xport) ∨ i = .llow ∨ i = .lhigh ∨ i = .dfin) ∧
    (t.surf ≠ s.surf →
      (∃ w h bpc pin xport, i = .attach w h bpc pin xport) ∨ (∃ off bs, i = .swrite off bs) ∨
      (∃ off v, i = .mstore off v) ∨ i = .dfin) ∧
    (t.errCount ≠ s.errCount → (∃ w h bpc pin xport, i = .attach w h bpc pin xport) ∨ i = .xdone .err)

/-- R26: only requests set `pending`, and only ACQ, DETACH, DFIN and ATTACH clear it. -/
def Obligations.OnlyRequestsSetPending : Prop :=
  ∀ (i : Instr) (s t : State), exec i s = .next t →
    (s.pending = false → t.pending = true → requests i = 1 ∧ s.life = .attached) ∧
    (s.pending = true → t.pending = false →
      i = .acq ∨ i = .detach ∨ i = .dfin ∨ ∃ w h bpc pin xport, i = .attach w h bpc pin xport)

/-- R37, R38: along a step the trace only grows and the mark is never cleared. -/
def Obligations.TheTraceGrowsAndTheMarkStays : Prop :=
  ∀ s t : State, step s = .next t → s.trace <+: t.trace ∧ (s.refused = true → t.refused = true)

/-- R105, R123: no instruction that runs on a device and leaves it a device changes a byte that is no data byte; and in
every state the invariant rules in, the config, address, trailer and terminator bytes stand as FRAMEINIT wrote them,
line `y`'s address byte the bit-reversed 1-based line number. -/
def Obligations.TheFramingBytesNeverChange : Prop :=
  (∀ (i : Instr) (s t : State), (s.life = .attached ∨ s.life = .detaching) → exec i s = .next t →
    (t.life = .attached ∨ t.life = .detaching) →
      ∀ a, dataPos s.width.toNat s.height.toNat a = none → frameRead? t.frame a = frameRead? s.frame a) ∧
  ∀ s : State, s.Inv → (s.life = .attached ∨ s.life = .detaching) →
    frameRead? s.frame 0 = some Config.cfgByte ∧
    (∀ y, y < s.height.toNat →
      frameRead? s.frame (lineBase s.width.toNat y) = some (bitrev8 (BitVec.ofNat 8 (y + 1))) ∧
      frameRead? s.frame (lineBase s.width.toNat y + 1 + s.width.toNat / 8) = some Config.trailerByte) ∧
    frameRead? s.frame (1 + s.height.toNat * (s.width.toNat / 8 + 2)) = some Config.termByte

/-- R132, R136, R106: from any state the invariant rules in with a flush due, the steps of FLUSH Ok run, in this order, to
P_IDLE with the lock released and the latch high; the flush's events are Xfer, XferResult(Ok), Pin(LOW), Pin(HIGH);
the committed frame is the one sent; and it is the frame of the surface as it stood at ACQ.
(How the committed frame is read from the trace is the model's reading of R136, log 27.) -/
def Obligations.AFlushCommitsTheSurfaceAtAcquisition : Prop :=
  ∀ s : State, s.Inv → s.acqEnabled = true →
    ∃ (t : State) (bs : List Byte),
      runInstrs (flushSteps .ok) s = some t ∧
      t.trace = s.trace ++ [.xfer bs, .xferResult .ok, .pin .low, .pin .high] ∧
      committed t.trace = some bs ∧
      bs.length = 1 + s.height.toNat * (s.width.toNat / 8 + 2) + 1 ∧
      (∀ y k, y < s.height.toNat → k < s.width.toNat / 8 →
        bs[lineBase s.width.toNat y + 1 + k]? = some (encodeByte (memRead s.surf) s.width.toNat y k)) ∧
      (∀ y, y < s.height.toNat →
        bs[lineBase s.width.toNat y]? = some (bitrev8 (BitVec.ofNat 8 (y + 1)))) ∧
      t.phase = .idle ∧ t.lock = false ∧ t.pending = false ∧ t.latch = .high ∧ t.surf = s.surf ∧ t.life = s.life

/-- R126, R132, R138, R218: a flush whose transfer fails runs ACQ, ENC, XFER, XDONE Err, REL: one Xfer, the failure and
one Log(3), no pulse; the lock is released, no retry is asked for, and the committed frame is what it was. -/
def Obligations.AFailedFlushCommitsNothingAndReleasesTheLock : Prop :=
  ∀ s : State, s.acqEnabled = true →
    ∃ (t : State) (bs : List Byte),
      runInstrs (flushSteps .err) s = some t ∧
      t.trace = s.trace ++ [.xfer bs, .xferResult .err, .log .transportFailure] ∧
      committed t.trace = committed s.trace ∧
      t.phase = .idle ∧ t.lock = false ∧ t.pending = false ∧ t.latch = s.latch ∧ t.surf = s.surf ∧
      t.life = s.life ∧ t.lastErr = .transportFailure

/-- R135: a flush uses up a request that was made: over one instruction the ACQ taken and the request then outstanding
are at most the request made and the one outstanding before, and a request made leaves one outstanding. So along any
run of instructions there are at most as many flushes as bursts, the maximal groups of requests made with no ACQ
between them, and as requests, one more if a request, and with it a burst, was outstanding at the start. -/
def Obligations.NoMoreFlushesThanRequests : Prop :=
  (∀ (i : Instr) (s t : State), exec i s = .next t →
    acqTaken i s + t.pending.toNat ≤ (s.makesRequest i).toNat + s.pending.toNat ∧
    (s.makesRequest i = true → t.pending = true)) ∧
  (∀ (is : List Instr) (s : State),
    flushCount is s ≤ burstCount s.pending is s + s.pending.toNat ∧
    burstCount s.pending is s ≤ requestsMade is s ∧ requestsMade is s ≤ requestCount is ∧
    flushCount is s ≤ requestCount is + s.pending.toNat)

/-- R133, R157: requests made by REQFL coalesce: any number of REQFLs in a row, while attached, leave what one leaves,
`pending` set, but for their results. (SWRITE's hook, the other request of R26, is not spoken of here.) Each REQFL returns
result 0 to its context (R150, R157); that the results stand in `replies`, under the context in `issuer`, is the model's
choice, logs 17 and 18. -/
def Obligations.RequestsCoalesce : Prop :=
  ∀ (n : Nat) (s : State), s.life = .attached →
    runInstrs (List.replicate (n + 1) .reqfl) s = some { s with
      pending := true
      replies := s.replies ++ List.replicate (n + 1) { ctx := s.issuer, code := .noError, data := .nothing } }

/-- R121, R153, E8: once DETACH is taken no flush starts any more, whatever is issued. -/
def Obligations.NoFlushStartsAfterDetach : Prop :=
  ∀ (is : List Instr) (s : State), (s.life = .detaching ∨ s.life = .detached) →
    flushCount is s = 0 ∧
    ∀ t, runInstrs is s = some t → t.life = .detaching ∨ t.life = .detached

/-- R130, R153: `Detached` is emitted only by DFIN, from DETACHING with no flush in
flight; after it the device is DETACHED and holds no memory. -/
def Obligations.DetachReturnsOnlyWhenTheFlushIsOver : Prop :=
  ∀ (i : Instr) (s t : State), exec i s = .next t → countEvent .detached t.trace ≠ countEvent .detached s.trace →
    i = .dfin ∧ s.life = .detaching ∧ s.phase = .idle ∧
    t.life = .detached ∧ t.surf = [] ∧ t.frame = [] ∧ t.detacher = none

/-- R204: every TransportFailure emits exactly one Log(3): over any step of any instruction the Log(3) events grow by
as many as the XferResult(Err) events. -/
def Obligations.OneLogPerTransportFailure : Prop :=
  ∀ (i : Instr) (s t : State), exec i s = .next t →
    countEvent (.log .transportFailure) t.trace + countEvent (.xferResult .err) s.trace =
      countEvent (.log .transportFailure) s.trace + countEvent (.xferResult .err) t.trace

/-- R131, R134: with no line left, a due flush reaches P_WAIT in three steps; then the transport's answer decides:
Ok leads in four steps, and Err in two, to P_IDLE with the lock released, and no answer leaves the block there for
good. (The listing and the answer's draw are the model's, logs 2 and 9; the statement holds for every answer.) -/
def Obligations.ADueFlushRunsToItsEnd : Prop :=
  ∀ s : State, s.listing = [] → s.acqEnabled = true →
    ∃ t : State, Host.Core.run Sys2Proof.core 3 s = .next t ∧ t.phase = .wait ∧ t.lock = true ∧
      match Config.xferOracle t.draws with
      | some .ok => ∃ u : State, Host.Core.run Sys2Proof.core 4 t = .next u ∧ u.phase = .idle ∧ u.lock = false
      | some .err => ∃ u : State, Host.Core.run Sys2Proof.core 2 t = .next u ∧ u.phase = .idle ∧ u.lock = false
      | none => ∀ n, Host.Core.run Sys2Proof.core n t = .next t

/-- Within one instruction, what host contexts were told (log 17), the mark, the listing (log 2), the issuer (log 18),
the blocked context and the last function value (log 3) steer nothing of the hardware: these are the model's own
choices. Which instruction runs next is another matter: there step reads the listing and the blocked context
(R150, R153; log 2). -/
def Obligations.BookkeepingSteersNoHardware : Prop :=
  ∀ (i : Instr) (s s' t t' : State), s.hardware = s'.hardware → exec i s = .next t → exec i s' = .next t' →
    t.hardware = t'.hardware

/-- R200 (as a list of states, log 20): a step of the fleet at `k` is the step of instance `k` from its own state alone,
and leaves every other instance as it was; and where instance `k` has a next state the fleet has. -/
def Obligations.InstancesShareNothing : Prop :=
  (∀ (fleet fleet' : List State) (k : Nat), fleetStep fleet k = .next fleet' →
    (∃ s t : State, fleet[k]? = some s ∧ step s = .next t ∧ fleet'[k]? = some t) ∧
    fleet'.length = fleet.length ∧ ∀ j, j ≠ k → fleet'[j]? = fleet[j]?) ∧
  (∀ (fleet : List State) (k : Nat) (s t : State), fleet[k]? = some s → step s = .next t →
    ∃ fleet' : List State, fleetStep fleet k = .next fleet')
end

