-- ==== Sys2Proof/Laws/Datapath.lean ====
section
/-! SUPPORT. The laws of the datapath: bit orders, the frame layout, and what ENC reads. -/

namespace Sys2Proof.Machine

/-! ### Bit orders -/

/-- `pack8`: bit `7 - j` is the `j`-th pixel's bit (R103). -/
theorem pack8_bits (b0 b1 b2 b3 b4 b5 b6 b7 : Bool) :
    (pack8 b0 b1 b2 b3 b4 b5 b6 b7).getLsbD 7 = b0 ∧ (pack8 b0 b1 b2 b3 b4 b5 b6 b7).getLsbD 6 = b1 ∧
    (pack8 b0 b1 b2 b3 b4 b5 b6 b7).getLsbD 5 = b2 ∧ (pack8 b0 b1 b2 b3 b4 b5 b6 b7).getLsbD 4 = b3 ∧
    (pack8 b0 b1 b2 b3 b4 b5 b6 b7).getLsbD 3 = b4 ∧ (pack8 b0 b1 b2 b3 b4 b5 b6 b7).getLsbD 2 = b5 ∧
    (pack8 b0 b1 b2 b3 b4 b5 b6 b7).getLsbD 1 = b6 ∧ (pack8 b0 b1 b2 b3 b4 b5 b6 b7).getLsbD 0 = b7 := by
  revert b0 b1 b2 b3 b4 b5 b6 b7; decide

/-- `bitrev8`: bit `j` is bit `7 - j` of the argument (R10). -/
theorem bitrev8_bit (v : Byte) (j : Nat) (hj : j < 8) : (bitrev8 v).getLsbD j = v.getLsbD (7 - j) := by
  obtain ⟨h7, h6, h5, h4, h3, h2, h1, h0⟩ := pack8_bits (v.getLsbD 0) (v.getLsbD 1) (v.getLsbD 2) (v.getLsbD 3)
    (v.getLsbD 4) (v.getLsbD 5) (v.getLsbD 6) (v.getLsbD 7)
  have : bitrev8 v = pack8 (v.getLsbD 0) (v.getLsbD 1) (v.getLsbD 2) (v.getLsbD 3)
    (v.getLsbD 4) (v.getLsbD 5) (v.getLsbD 6) (v.getLsbD 7) := rfl
  rw [this]
  interval_cases j <;> assumption

theorem bitrev8_bitrev8 (v : Byte) : bitrev8 (bitrev8 v) = v := by
  apply BitVec.eq_of_getLsbD_eq
  intro i hi
  rw [bitrev8_bit _ i hi, bitrev8_bit _ (7 - i) (by omega)]
  congr 1; omega

/-! ### Frame layout -/

/-- The data addresses are exactly those of R54. -/
theorem dataPos_eq_some (w h i y k : Nat) :
    dataPos w h i = some (y, k) ↔ y < h ∧ k < dataBytes w ∧ i = dataAddr w y k := by
  have hd : 0 < dataBytes w + 2 := by omega
  simp only [dataPos, dataAddr, lineBase]
  constructor
  · intro H
    split at H
    · rename_i hc
      simp only [Option.some.injEq, Prod.mk.injEq] at H
      obtain ⟨rfl, rfl⟩ := H
      have := Nat.div_add_mod (i - 1) (dataBytes w + 2)
      rw [Nat.mul_comm] at this
      exact ⟨hc.2.1, by omega, by omega⟩
    · cases H
  · rintro ⟨hy, hk, rfl⟩
    have e : 1 + y * (dataBytes w + 2) + 1 + k - 1 = (k + 1) + y * (dataBytes w + 2) := by omega
    have hdiv : (1 + y * (dataBytes w + 2) + 1 + k - 1) / (dataBytes w + 2) = y := by
      rw [e, Nat.add_mul_div_right _ _ hd, Nat.div_eq_of_lt (by omega), Nat.zero_add]
    have hmod : (1 + y * (dataBytes w + 2) + 1 + k - 1) % (dataBytes w + 2) = k + 1 := by
      rw [e, Nat.add_mul_mod_self_right, Nat.mod_eq_of_lt (by omega)]
    rw [hdiv, hmod, if_pos ⟨by omega, hy, by omega, by omega⟩]
    rfl

theorem frameLen_eq (w h : Nat) : frameLen w h = h * (dataBytes w + 2) + 2 := by
  simp only [frameLen]; ring

/-- A data address lies in the frame. -/
theorem dataAddr_lt_frameLen {w h y k : Nat} (hy : y < h) (hk : k < dataBytes w) :
    dataAddr w y k < frameLen w h := by
  rw [frameLen_eq, dataAddr, lineBase]
  have : (y + 1) * (dataBytes w + 2) ≤ h * (dataBytes w + 2) := Nat.mul_le_mul_right _ hy
  rw [Nat.add_mul] at this; omega

/-- ENC leaves a byte that is no data byte, and encodes the others (R123). -/
theorem encodedByte_none {img : Nat → Byte} {w h i : Nat} (v : Byte) (hi : dataPos w h i = none) :
    encodedByte img w h i v = v := by rw [encodedByte, hi]

theorem encodedByte_dataAddr (img : Nat → Byte) {w h y k : Nat} (v : Byte) (hy : y < h) (hk : k < dataBytes w) :
    encodedByte img w h (dataAddr w y k) v = encodeByte img w y k := by
  rw [encodedByte, (dataPos_eq_some w h _ y k).mpr ⟨hy, hk, rfl⟩]

/-! ### What ENC reads -/

/-- The byte ENC reads is the drawn candidate; with no racing write there is one candidate only (R64). -/
theorem State.encImage_eq_candidate (s : State) (a : Nat) :
    s.encImage a = (s.candidates a).getD (s.raceDraw a % (s.candidates a).length) (memRead s.snap a) := by
  unfold State.encImage
  split
  · rename_i h; simp [State.candidates, h, Nat.mod_one]
  · rfl

/-- The byte ENC reads is one of the candidates (R64). -/
theorem State.encImage_mem (s : State) (a : Nat) : s.encImage a ∈ s.candidates a := by
  have hlen : 0 < (s.candidates a).length := by simp [State.candidates]
  rw [State.encImage_eq_candidate, List.getD_eq_getElem _ _ (Nat.mod_lt _ hlen)]
  exact List.getElem_mem _

/-- With no racing write the byte is the snapshot's (R65). -/
theorem State.encImage_eq_snap (s : State) (a : Nat) (h : raceAt s.wr a = []) : s.encImage a = memRead s.snap a := by
  simp only [State.encImage, h]

end Sys2Proof.Machine
end

