-- ==== Sys2Proof/Laws/Memory.lean ====
section
/-! SUPPORT. The laws of the two memories and of the race sets: what a read gives after a write, and that every
operation keeps the canonical form. -/

namespace Sys2Proof.Machine

/-! ### SURF -/

theorem memWfFrom_cons (lo a : Nat) (v : Byte) (m : List Host.Cell) :
    memWfFrom lo ((a, v) :: m) = true ↔ lo ≤ a ∧ v ≠ 0 ∧ memWfFrom (a + 1) m = true := by
  simp [memWfFrom, and_assoc]

theorem memWfFrom_mono {lo lo' : Nat} (h : lo ≤ lo') (m : List Host.Cell) (hm : memWfFrom lo' m = true) :
    memWfFrom lo m = true := by
  cases m with
  | nil => rfl
  | cons c m =>
    obtain ⟨a, v⟩ := c
    rw [memWfFrom_cons] at hm ⊢
    exact ⟨h.trans hm.1, hm.2⟩

/-- An address below every listed one reads 0. -/
theorem memRead_below {lo a : Nat} (m : List Host.Cell) (hm : memWfFrom lo m = true) (ha : a < lo) :
    memRead m a = 0 := by
  induction m generalizing lo with
  | nil => rfl
  | cons c m ih =>
    obtain ⟨b, w⟩ := c
    rw [memWfFrom_cons] at hm
    have hne : a ≠ b := by omega
    simp only [memRead, if_neg hne]
    exact ih hm.2.2 (by omega)

/-- Read after write. -/
theorem memRead_memWrite {lo : Nat} (m : List Host.Cell) (hm : memWfFrom lo m = true) (a b : Nat) (v : Byte) :
    memRead (memWrite m a v) b = if b = a then v else memRead m b := by
  induction m generalizing lo with
  | nil =>
    by_cases hv : v = 0#8 <;> by_cases hb : b = a <;> simp [memWrite, memRead, hv, hb]
  | cons c m ih =>
    obtain ⟨x, w⟩ := c
    rw [memWfFrom_cons] at hm
    have below : ∀ z, z < x + 1 → memRead m z = 0 := fun z hz => memRead_below m hm.2.2 hz
    simp only [memWrite]
    by_cases hax : a < x
    · have hane : a ≠ x := by omega
      by_cases hv : v = 0#8
      · by_cases hb : b = a
        · subst hb; simp [hax, hv, memRead, hane, below b (by omega)]
        · simp [hax, hv, hb]
      · by_cases hb : b = a
        · subst hb; simp [hax, hv, memRead]
        · simp [hax, hv, memRead, hb]
    · rw [if_neg hax]
      by_cases hae : a = x
      · subst hae
        by_cases hv : v = 0#8
        · by_cases hb : b = a
          · subst hb; simp [hv, below b (by omega)]
          · simp [hv, memRead, hb]
        · by_cases hb : b = a <;> simp [hv, memRead, hb]
      · rw [if_neg hae]
        by_cases hb : b = x
        · have : b ≠ a := fun h => hae (by omega)
          simp [memRead, hb, Ne.symm hae]
        · simp [memRead, hb, ih hm.2.2]

/-- A write keeps the canonical form. -/
theorem memWfFrom_memWrite {lo a : Nat} (m : List Host.Cell) (v : Byte) (hm : memWfFrom lo m = true) (ha : lo ≤ a) :
    memWfFrom lo (memWrite m a v) = true := by
  induction m generalizing lo with
  | nil => by_cases hv : v = 0#8 <;> simp [memWrite, memWfFrom, hv, ha]
  | cons c m ih =>
    obtain ⟨x, w⟩ := c
    have hm' := (memWfFrom_cons ..).mp hm
    simp only [memWrite]
    by_cases hax : a < x
    · by_cases hv : v = 0
      · simpa [hax, hv] using hm
      · rw [if_pos hax, if_neg hv, memWfFrom_cons, memWfFrom_cons]
        exact ⟨ha, hv, by omega, hm'.2⟩
    · rw [if_neg hax]
      by_cases hae : a = x
      · subst hae
        by_cases hv : v = 0
        · rw [if_pos rfl, if_pos hv]
          exact memWfFrom_mono (by omega) m hm'.2.2
        · rw [if_pos rfl, if_neg hv, memWfFrom_cons]
          exact ⟨ha, hv, hm'.2.2⟩
      · rw [if_neg hae, memWfFrom_cons]
        exact ⟨hm'.1, hm'.2.1, ih hm'.2.2 (by omega)⟩

theorem memWf_memWrite (m : List Host.Cell) (a : Nat) (v : Byte) (hm : memWf m = true) :
    memWf (memWrite m a v) = true := memWfFrom_memWrite m v hm (Nat.zero_le a)

theorem memWf_memWriteList (bs : List Byte) (m : List Host.Cell) (a : Nat) (hm : memWf m = true) :
    memWf (memWriteList m a bs) = true := by
  induction bs generalizing m a with
  | nil => exact hm
  | cons v bs ih => exact ih _ _ (memWf_memWrite m a v hm)

/-- What a listed cell of a written memory is. -/
theorem mem_memWrite (m : List Host.Cell) (a : Nat) (v : Byte) (c : Host.Cell) (h : c ∈ memWrite m a v) :
    c.1 = a ∨ c ∈ m := by
  induction m with
  | nil =>
    by_cases hv : v = 0
    · simp [memWrite, hv] at h
    · simp only [memWrite, if_neg hv, List.mem_singleton] at h; simp [h]
  | cons d m ih =>
    obtain ⟨x, w⟩ := d
    simp only [memWrite] at h
    split at h
    · split at h
      · exact .inr h
      · rcases List.mem_cons.mp h with h | h
        · exact .inl (by rw [h])
        · exact .inr h
    · split at h
      · split at h
        · exact .inr (List.mem_cons_of_mem _ h)
        · rcases List.mem_cons.mp h with h | h
          · exact .inl (by rw [h])
          · exact .inr (List.mem_cons_of_mem _ h)
      · rcases List.mem_cons.mp h with h | h
        · exact .inr (by simp [h])
        · exact (ih h).imp id (List.mem_cons_of_mem _)

theorem memBelow_iff (n : Nat) (m : List Host.Cell) : memBelow n m = true ↔ ∀ c ∈ m, c.1 < n := by
  simp [memBelow, List.all_eq_true]

theorem memBelow_memWriteList (bs : List Byte) (m : List Host.Cell) (a n : Nat) (hm : memBelow n m = true)
    (ha : a + bs.length ≤ n) : memBelow n (memWriteList m a bs) = true := by
  induction bs generalizing m a with
  | nil => exact hm
  | cons v bs ih =>
    refine ih _ _ ?_ (by simp at ha; omega)
    rw [memBelow_iff] at hm ⊢
    intro c hc
    rcases mem_memWrite m a v c hc with h | h
    · rw [h]; simp at ha; omega
    · exact hm c h

/-- Read after a multi-byte write. -/
theorem memRead_memWriteList (bs : List Byte) (m : List Host.Cell) (a b : Nat) (hm : memWf m = true) :
    memRead (memWriteList m a bs) b =
      if a ≤ b ∧ b < a + bs.length then bs.getD (b - a) 0 else memRead m b := by
  induction bs generalizing m a with
  | nil =>
    have : ¬ (a ≤ b ∧ b < a + ([] : List Byte).length) := by simp
    rw [if_neg this]; rfl
  | cons v bs ih =>
    simp only [memWriteList]
    rw [ih _ _ (memWf_memWrite m a v hm), memRead_memWrite m hm]
    by_cases h : b = a
    · subst h; simp
    · by_cases h2 : a + 1 ≤ b ∧ b < a + 1 + bs.length
      · have e : b - a = (b - (a + 1)) + 1 := by omega
        rw [if_pos h2, if_pos (by simp; omega), e]; simp
      · rw [if_neg h2, if_neg h, if_neg (by simp; omega)]

/-- Canonical memories that read alike are equal. -/
theorem memWfFrom_ext {lo : Nat} (m n : List Host.Cell) (hm : memWfFrom lo m = true) (hn : memWfFrom lo n = true)
    (h : ∀ a, memRead m a = memRead n a) : m = n := by
  induction m generalizing n lo with
  | nil =>
    cases n with
    | nil => rfl
    | cons c n =>
      obtain ⟨x, w⟩ := c
      have hn' := (memWfFrom_cons ..).mp hn
      exact absurd (h x).symm (by simpa [memRead] using hn'.2.1)
  | cons c m ih =>
    obtain ⟨x, w⟩ := c
    have hm' := (memWfFrom_cons ..).mp hm
    cases n with
    | nil => exact absurd (h x) (by simpa [memRead] using hm'.2.1)
    | cons d n =>
      obtain ⟨y, u⟩ := d
      have hn' := (memWfFrom_cons ..).mp hn
      have hxy : x = y := by
        rcases Nat.lt_trichotomy x y with hlt | heq | hgt
        · have := h x
          simp only [memRead, if_neg (Nat.ne_of_lt hlt), if_true] at this
          rw [memRead_below n hn'.2.2 (by omega)] at this
          exact absurd this hm'.2.1
        · exact heq
        · have := h y
          simp only [memRead, if_neg (Nat.ne_of_lt hgt), if_true] at this
          rw [memRead_below m hm'.2.2 (by omega)] at this
          exact absurd this.symm hn'.2.1
      subst hxy
      have hwu : w = u := by simpa [memRead] using h x
      subst hwu
      congr 1
      refine ih n hm'.2.2 hn'.2.2 fun a => ?_
      by_cases ha : a = x
      · subst ha
        rw [memRead_below m hm'.2.2 (by omega), memRead_below n hn'.2.2 (by omega)]
      · simpa [memRead, ha] using h a

/-! ### FRAME -/

/-- A map of the bytes by address is a map of what is read. -/
theorem frameRead?_map (g : Nat → Byte → Byte) (f : List Host.Cell) (i : Nat) :
    frameRead? (f.map fun c => (c.1, g c.1 c.2)) i = (frameRead? f i).map (g i) := by
  induction f with
  | nil => rfl
  | cons c f ih =>
    obtain ⟨b, w⟩ := c
    by_cases h : i = b
    · subst h; simp [frameRead?]
    · simp [frameRead?, h, ih]

theorem frameRead?_isSome (f : List Host.Cell) (i : Nat) :
    (frameRead? f i).isSome = true ↔ i ∈ f.map fun c => c.1 := by
  induction f with
  | nil => simp [frameRead?]
  | cons c f ih =>
    obtain ⟨b, w⟩ := c
    by_cases h : i = b
    · subst h; simp [frameRead?]
    · simpa [frameRead?, h] using ih

/-- What a table of bytes by address reads. -/
theorem frameRead?_table (g : Nat → Byte) (l : List Nat) (i : Nat) :
    frameRead? (l.map fun j => (j, g j)) i = if i ∈ l then some (g i) else none := by
  induction l with
  | nil => simp [frameRead?]
  | cons j l ih =>
    by_cases h : i = j
    · subst h; simp [frameRead?]
    · simp [frameRead?, h, ih]

theorem frameRead?_frameInit (w h i : Nat) :
    frameRead? (frameInit w h) i = if i < frameLen w h then some (frameInitByte w h i) else none := by
  rw [frameInit, frameRead?_table]; simp

theorem frameRead?_encodeFrame (img : Nat → Byte) (w h : Nat) (f : List Host.Cell) (i : Nat) :
    frameRead? (encodeFrame img w h f) i = (frameRead? f i).map (encodedByte img w h i) :=
  frameRead?_map (encodedByte img w h) f i

/-- ENC keeps the frame's addresses. -/
theorem encodeFrame_addresses (img : Nat → Byte) (w h : Nat) (f : List Host.Cell) :
    (encodeFrame img w h f).map (fun c => c.1) = f.map fun c => c.1 := by
  simp [encodeFrame, Function.comp_def]

theorem frameInit_addresses (w h : Nat) : (frameInit w h).map (fun c => c.1) = List.range (frameLen w h) := by
  simp [frameInit, Function.comp_def]

/-- Reading a stretch of addresses that all hold a byte. -/
theorem frameReadList_eq_map (f : List Host.Cell) (g : Nat → Byte) (i n : Nat)
    (h : ∀ k, k < n → frameRead? f (i + k) = some (g (i + k))) :
    frameReadList f i n = (List.range n).map fun k => g (i + k) := by
  rw [frameReadList, ← List.filterMap_eq_map]
  refine List.filterMap_congr fun k hk => ?_
  simp [h k (List.mem_range.mp hk)]

/-! ### Race sets -/

theorem mem_raceInsert (m : List Host.Cell) (a : Nat) (v : Byte) (c : Host.Cell) :
    c ∈ raceInsert m a v ↔ c = (a, v) ∨ c ∈ m := by
  induction m with
  | nil => simp [raceInsert]
  | cons d m ih =>
    obtain ⟨b, w⟩ := d
    simp only [raceInsert]
    split
    · simp
    · split
      · rename_i h; obtain ⟨rfl, rfl⟩ := h; simp
      · simp only [List.mem_cons, ih]; tauto

theorem raceWf_cons (a : Nat) (v : Byte) (m : List Host.Cell) :
    raceWf ((a, v) :: m) = true ↔
      (∀ c ∈ m, a < c.1 ∨ (a = c.1 ∧ v.toNat < c.2.toNat)) ∧ raceWf m = true := by
  simp only [raceWf, Bool.and_eq_true, List.all_eq_true, decide_eq_true_eq]

/-- Adding a byte keeps the canonical form. -/
theorem raceWf_raceInsert (m : List Host.Cell) (a : Nat) (v : Byte) (hm : raceWf m = true) :
    raceWf (raceInsert m a v) = true := by
  induction m with
  | nil => simp [raceInsert, raceWf]
  | cons d m ih =>
    obtain ⟨b, w⟩ := d
    have hm' := (raceWf_cons ..).mp hm
    simp only [raceInsert]
    split
    · rename_i h
      rw [raceWf_cons]
      refine ⟨fun c hc => ?_, hm⟩
      rcases List.mem_cons.mp hc with rfl | hc
      · exact h
      · have := hm'.1 c hc
        omega
    · split
      · exact hm
      · rename_i h1 h2
        rw [raceWf_cons]
        refine ⟨fun c hc => ?_, ih hm'.2⟩
        rcases (mem_raceInsert m a v c).mp hc with rfl | hc
        · by_cases hab : a = b
          · right
            refine ⟨hab.symm, ?_⟩
            have hvw : v.toNat ≠ w.toNat := fun e => h2 ⟨hab, BitVec.eq_of_toNat_eq e⟩
            have := not_or.mp h1
            simp only [not_and] at this
            have := this.2 hab
            simp only; omega
          · left; have := not_or.mp h1; simp only; omega
        · exact hm'.1 c hc

theorem raceWf_raceInsertList (bs : List Byte) (m : List Host.Cell) (a : Nat) (hm : raceWf m = true) :
    raceWf (raceInsertList m a bs) = true := by
  induction bs generalizing m a with
  | nil => exact hm
  | cons v bs ih => exact ih _ _ (raceWf_raceInsert m a v hm)

theorem mem_raceInsertList (bs : List Byte) (m : List Host.Cell) (a : Nat) (c : Host.Cell) :
    c ∈ raceInsertList m a bs ↔ (a ≤ c.1 ∧ c.1 < a + bs.length ∧ bs[c.1 - a]? = some c.2) ∨ c ∈ m := by
  induction bs generalizing m a with
  | nil => simp only [raceInsertList, List.length_nil]; constructor
           · exact .inr
           · rintro (⟨_, h, _⟩ | h)
             · omega
             · exact h
  | cons v bs ih =>
    obtain ⟨x, u⟩ := c
    simp only [raceInsertList, ih, mem_raceInsert, List.length_cons, Prod.mk.injEq]
    constructor
    · rintro (⟨h1, h2, h3⟩ | ⟨rfl, rfl⟩ | h)
      · refine .inl ⟨by omega, by omega, ?_⟩
        have : x - a = (x - (a + 1)) + 1 := by omega
        rw [this]; simpa using h3
      · exact .inl ⟨by omega, by omega, by simp⟩
      · exact .inr h
    · rintro (⟨h1, h2, h3⟩ | h)
      · by_cases hx : x = a
        · subst hx; simp at h3; exact .inr (.inl ⟨rfl, h3.symm⟩)
        · refine .inl ⟨by omega, by omega, ?_⟩
          have : x - a = (x - (a + 1)) + 1 := by omega
          rw [this] at h3; simpa using h3
      · exact .inr (.inr h)

theorem mem_raceAt (wr : List Host.Cell) (a : Nat) (v : Byte) : v ∈ raceAt wr a ↔ (a, v) ∈ wr := by
  simp only [raceAt, List.mem_map, List.mem_filter, decide_eq_true_eq]
  constructor
  · rintro ⟨⟨x, u⟩, ⟨h, rfl⟩, rfl⟩; exact h
  · exact fun h => ⟨(a, v), ⟨h, rfl⟩, rfl⟩

theorem memBelow_raceInsertList (bs : List Byte) (m : List Host.Cell) (a n : Nat) (hm : memBelow n m = true)
    (ha : a + bs.length ≤ n) : memBelow n (raceInsertList m a bs) = true := by
  rw [memBelow_iff] at hm ⊢
  intro c hc
  rcases (mem_raceInsertList bs m a c).mp hc with ⟨_, h, _⟩ | h
  · omega
  · exact hm c h

end Sys2Proof.Machine
end

