-- ==== Sys2Proof/Laws/State.lean ====
section
/-! SUPPORT. One lemma per field per update of the state, so that no proof unfolds a record update. -/

namespace Sys2Proof.Machine

/-! #### emit -/

@[simp] theorem State.emit_life (s : State) (e : Event) : (s.emit e).life = s.life := rfl
@[simp] theorem State.emit_phase (s : State) (e : Event) : (s.emit e).phase = s.phase := rfl
@[simp] theorem State.emit_pending (s : State) (e : Event) : (s.emit e).pending = s.pending := rfl
@[simp] theorem State.emit_lock (s : State) (e : Event) : (s.emit e).lock = s.lock := rfl
@[simp] theorem State.emit_surf (s : State) (e : Event) : (s.emit e).surf = s.surf := rfl
@[simp] theorem State.emit_frame (s : State) (e : Event) : (s.emit e).frame = s.frame := rfl
@[simp] theorem State.emit_width (s : State) (e : Event) : (s.emit e).width = s.width := rfl
@[simp] theorem State.emit_height (s : State) (e : Event) : (s.emit e).height = s.height := rfl
@[simp] theorem State.emit_latch (s : State) (e : Event) : (s.emit e).latch = s.latch := rfl
@[simp] theorem State.emit_lastErr (s : State) (e : Event) : (s.emit e).lastErr = s.lastErr := rfl
@[simp] theorem State.emit_errCount (s : State) (e : Event) : (s.emit e).errCount = s.errCount := rfl
@[simp] theorem State.emit_snap (s : State) (e : Event) : (s.emit e).snap = s.snap := rfl
@[simp] theorem State.emit_wr (s : State) (e : Event) : (s.emit e).wr = s.wr := rfl
@[simp] theorem State.emit_trace (s : State) (e : Event) : (s.emit e).trace = s.trace ++ [e] := rfl
@[simp] theorem State.emit_refused (s : State) (e : Event) : (s.emit e).refused = s.refused := rfl
@[simp] theorem State.emit_detacher (s : State) (e : Event) : (s.emit e).detacher = s.detacher := rfl
@[simp] theorem State.emit_replies (s : State) (e : Event) : (s.emit e).replies = s.replies := rfl
@[simp] theorem State.emit_listing (s : State) (e : Event) : (s.emit e).listing = s.listing := rfl
@[simp] theorem State.emit_issuer (s : State) (e : Event) : (s.emit e).issuer = s.issuer := rfl
@[simp] theorem State.emit_recorded (s : State) (e : Event) : (s.emit e).recorded = s.recorded := rfl
@[simp] theorem State.emit_draws (s : State) (e : Event) : (s.emit e).draws = s.draws := rfl
@[simp] theorem State.emit_fnOut (s : State) (e : Event) : (s.emit e).fnOut = s.fnOut := rfl

/-! #### reply -/

@[simp] theorem State.reply_life (s : State) (c : ErrorCode) (d : ReplyData) : (s.reply c d).life = s.life := rfl
@[simp] theorem State.reply_phase (s : State) (c : ErrorCode) (d : ReplyData) : (s.reply c d).phase = s.phase := rfl
@[simp] theorem State.reply_pending (s : State) (c : ErrorCode) (d : ReplyData) : (s.reply c d).pending = s.pending := rfl
@[simp] theorem State.reply_lock (s : State) (c : ErrorCode) (d : ReplyData) : (s.reply c d).lock = s.lock := rfl
@[simp] theorem State.reply_surf (s : State) (c : ErrorCode) (d : ReplyData) : (s.reply c d).surf = s.surf := rfl
@[simp] theorem State.reply_frame (s : State) (c : ErrorCode) (d : ReplyData) : (s.reply c d).frame = s.frame := rfl
@[simp] theorem State.reply_width (s : State) (c : ErrorCode) (d : ReplyData) : (s.reply c d).width = s.width := rfl
@[simp] theorem State.reply_height (s : State) (c : ErrorCode) (d : ReplyData) : (s.reply c d).height = s.height := rfl
@[simp] theorem State.reply_latch (s : State) (c : ErrorCode) (d : ReplyData) : (s.reply c d).latch = s.latch := rfl
@[simp] theorem State.reply_lastErr (s : State) (c : ErrorCode) (d : ReplyData) : (s.reply c d).lastErr = s.lastErr := rfl
@[simp] theorem State.reply_errCount (s : State) (c : ErrorCode) (d : ReplyData) : (s.reply c d).errCount = s.errCount := rfl
@[simp] theorem State.reply_snap (s : State) (c : ErrorCode) (d : ReplyData) : (s.reply c d).snap = s.snap := rfl
@[simp] theorem State.reply_wr (s : State) (c : ErrorCode) (d : ReplyData) : (s.reply c d).wr = s.wr := rfl
@[simp] theorem State.reply_trace (s : State) (c : ErrorCode) (d : ReplyData) : (s.reply c d).trace = s.trace := rfl
@[simp] theorem State.reply_refused (s : State) (c : ErrorCode) (d : ReplyData) : (s.reply c d).refused = s.refused := rfl
@[simp] theorem State.reply_detacher (s : State) (c : ErrorCode) (d : ReplyData) : (s.reply c d).detacher = s.detacher := rfl
@[simp] theorem State.reply_replies (s : State) (c : ErrorCode) (d : ReplyData) : (s.reply c d).replies = s.replies ++ [{ ctx := s.issuer, code := c, data := d }] := rfl
@[simp] theorem State.reply_listing (s : State) (c : ErrorCode) (d : ReplyData) : (s.reply c d).listing = s.listing := rfl
@[simp] theorem State.reply_issuer (s : State) (c : ErrorCode) (d : ReplyData) : (s.reply c d).issuer = s.issuer := rfl
@[simp] theorem State.reply_recorded (s : State) (c : ErrorCode) (d : ReplyData) : (s.reply c d).recorded = s.recorded := rfl
@[simp] theorem State.reply_draws (s : State) (c : ErrorCode) (d : ReplyData) : (s.reply c d).draws = s.draws := rfl
@[simp] theorem State.reply_fnOut (s : State) (c : ErrorCode) (d : ReplyData) : (s.reply c d).fnOut = s.fnOut := rfl

/-! #### refuse -/

@[simp] theorem State.refuse_life (s : State) (y : RefuseReason) : (s.refuse y).life = s.life := rfl
@[simp] theorem State.refuse_phase (s : State) (y : RefuseReason) : (s.refuse y).phase = s.phase := rfl
@[simp] theorem State.refuse_pending (s : State) (y : RefuseReason) : (s.refuse y).pending = s.pending := rfl
@[simp] theorem State.refuse_lock (s : State) (y : RefuseReason) : (s.refuse y).lock = s.lock := rfl
@[simp] theorem State.refuse_surf (s : State) (y : RefuseReason) : (s.refuse y).surf = s.surf := rfl
@[simp] theorem State.refuse_frame (s : State) (y : RefuseReason) : (s.refuse y).frame = s.frame := rfl
@[simp] theorem State.refuse_width (s : State) (y : RefuseReason) : (s.refuse y).width = s.width := rfl
@[simp] theorem State.refuse_height (s : State) (y : RefuseReason) : (s.refuse y).height = s.height := rfl
@[simp] theorem State.refuse_latch (s : State) (y : RefuseReason) : (s.refuse y).latch = s.latch := rfl
@[simp] theorem State.refuse_lastErr (s : State) (y : RefuseReason) : (s.refuse y).lastErr = s.lastErr := rfl
@[simp] theorem State.refuse_errCount (s : State) (y : RefuseReason) : (s.refuse y).errCount = s.errCount := rfl
@[simp] theorem State.refuse_snap (s : State) (y : RefuseReason) : (s.refuse y).snap = s.snap := rfl
@[simp] theorem State.refuse_wr (s : State) (y : RefuseReason) : (s.refuse y).wr = s.wr := rfl
@[simp] theorem State.refuse_trace (s : State) (y : RefuseReason) : (s.refuse y).trace = s.trace := rfl
@[simp] theorem State.refuse_refused (s : State) (y : RefuseReason) : (s.refuse y).refused = true := rfl
@[simp] theorem State.refuse_detacher (s : State) (y : RefuseReason) : (s.refuse y).detacher = s.detacher := rfl
@[simp] theorem State.refuse_replies (s : State) (y : RefuseReason) : (s.refuse y).replies = s.replies := rfl
@[simp] theorem State.refuse_listing (s : State) (y : RefuseReason) : (s.refuse y).listing = s.listing := rfl
@[simp] theorem State.refuse_issuer (s : State) (y : RefuseReason) : (s.refuse y).issuer = s.issuer := rfl
@[simp] theorem State.refuse_recorded (s : State) (y : RefuseReason) : (s.refuse y).recorded = s.recorded := rfl
@[simp] theorem State.refuse_draws (s : State) (y : RefuseReason) : (s.refuse y).draws = s.draws := rfl
@[simp] theorem State.refuse_fnOut (s : State) (y : RefuseReason) : (s.refuse y).fnOut = s.fnOut := rfl

/-! #### drew -/

@[simp] theorem State.drew_life (s : State) : s.drew.life = s.life := rfl
@[simp] theorem State.drew_phase (s : State) : s.drew.phase = s.phase := rfl
@[simp] theorem State.drew_pending (s : State) : s.drew.pending = s.pending := rfl
@[simp] theorem State.drew_lock (s : State) : s.drew.lock = s.lock := rfl
@[simp] theorem State.drew_surf (s : State) : s.drew.surf = s.surf := rfl
@[simp] theorem State.drew_frame (s : State) : s.drew.frame = s.frame := rfl
@[simp] theorem State.drew_width (s : State) : s.drew.width = s.width := rfl
@[simp] theorem State.drew_height (s : State) : s.drew.height = s.height := rfl
@[simp] theorem State.drew_latch (s : State) : s.drew.latch = s.latch := rfl
@[simp] theorem State.drew_lastErr (s : State) : s.drew.lastErr = s.lastErr := rfl
@[simp] theorem State.drew_errCount (s : State) : s.drew.errCount = s.errCount := rfl
@[simp] theorem State.drew_snap (s : State) : s.drew.snap = s.snap := rfl
@[simp] theorem State.drew_wr (s : State) : s.drew.wr = s.wr := rfl
@[simp] theorem State.drew_trace (s : State) : s.drew.trace = s.trace := rfl
@[simp] theorem State.drew_refused (s : State) : s.drew.refused = s.refused := rfl
@[simp] theorem State.drew_detacher (s : State) : s.drew.detacher = s.detacher := rfl
@[simp] theorem State.drew_replies (s : State) : s.drew.replies = s.replies := rfl
@[simp] theorem State.drew_listing (s : State) : s.drew.listing = s.listing := rfl
@[simp] theorem State.drew_issuer (s : State) : s.drew.issuer = s.issuer := rfl
@[simp] theorem State.drew_recorded (s : State) : s.drew.recorded = s.recorded := rfl
@[simp] theorem State.drew_draws (s : State) : s.drew.draws = s.draws + 1 := rfl
@[simp] theorem State.drew_fnOut (s : State) : s.drew.fnOut = s.fnOut := rfl

/-! #### request -/

@[simp] theorem State.request_life (s : State) : s.request.life = s.life := rfl
@[simp] theorem State.request_phase (s : State) : s.request.phase = s.phase := rfl
@[simp] theorem State.request_pending (s : State) : s.request.pending = true := rfl
@[simp] theorem State.request_lock (s : State) : s.request.lock = s.lock := rfl
@[simp] theorem State.request_surf (s : State) : s.request.surf = s.surf := rfl
@[simp] theorem State.request_frame (s : State) : s.request.frame = s.frame := rfl
@[simp] theorem State.request_width (s : State) : s.request.width = s.width := rfl
@[simp] theorem State.request_height (s : State) : s.request.height = s.height := rfl
@[simp] theorem State.request_latch (s : State) : s.request.latch = s.latch := rfl
@[simp] theorem State.request_lastErr (s : State) : s.request.lastErr = s.lastErr := rfl
@[simp] theorem State.request_errCount (s : State) : s.request.errCount = s.errCount := rfl
@[simp] theorem State.request_snap (s : State) : s.request.snap = s.snap := rfl
@[simp] theorem State.request_wr (s : State) : s.request.wr = s.wr := rfl
@[simp] theorem State.request_trace (s : State) : s.request.trace = s.trace := rfl
@[simp] theorem State.request_refused (s : State) : s.request.refused = s.refused := rfl
@[simp] theorem State.request_detacher (s : State) : s.request.detacher = s.detacher := rfl
@[simp] theorem State.request_replies (s : State) : s.request.replies = s.replies := rfl
@[simp] theorem State.request_listing (s : State) : s.request.listing = s.listing := rfl
@[simp] theorem State.request_issuer (s : State) : s.request.issuer = s.issuer := rfl
@[simp] theorem State.request_recorded (s : State) : s.request.recorded = s.recorded := rfl
@[simp] theorem State.request_draws (s : State) : s.request.draws = s.draws := rfl
@[simp] theorem State.request_fnOut (s : State) : s.request.fnOut = s.fnOut := rfl

/-! #### clearPending -/

@[simp] theorem State.clearPending_life (s : State) : s.clearPending.life = s.life := rfl
@[simp] theorem State.clearPending_phase (s : State) : s.clearPending.phase = s.phase := rfl
@[simp] theorem State.clearPending_pending (s : State) : s.clearPending.pending = false := rfl
@[simp] theorem State.clearPending_lock (s : State) : s.clearPending.lock = s.lock := rfl
@[simp] theorem State.clearPending_surf (s : State) : s.clearPending.surf = s.surf := rfl
@[simp] theorem State.clearPending_frame (s : State) : s.clearPending.frame = s.frame := rfl
@[simp] theorem State.clearPending_width (s : State) : s.clearPending.width = s.width := rfl
@[simp] theorem State.clearPending_height (s : State) : s.clearPending.height = s.height := rfl
@[simp] theorem State.clearPending_latch (s : State) : s.clearPending.latch = s.latch := rfl
@[simp] theorem State.clearPending_lastErr (s : State) : s.clearPending.lastErr = s.lastErr := rfl
@[simp] theorem State.clearPending_errCount (s : State) : s.clearPending.errCount = s.errCount := rfl
@[simp] theorem State.clearPending_snap (s : State) : s.clearPending.snap = s.snap := rfl
@[simp] theorem State.clearPending_wr (s : State) : s.clearPending.wr = s.wr := rfl
@[simp] theorem State.clearPending_trace (s : State) : s.clearPending.trace = s.trace := rfl
@[simp] theorem State.clearPending_refused (s : State) : s.clearPending.refused = s.refused := rfl
@[simp] theorem State.clearPending_detacher (s : State) : s.clearPending.detacher = s.detacher := rfl
@[simp] theorem State.clearPending_replies (s : State) : s.clearPending.replies = s.replies := rfl
@[simp] theorem State.clearPending_listing (s : State) : s.clearPending.listing = s.listing := rfl
@[simp] theorem State.clearPending_issuer (s : State) : s.clearPending.issuer = s.issuer := rfl
@[simp] theorem State.clearPending_recorded (s : State) : s.clearPending.recorded = s.recorded := rfl
@[simp] theorem State.clearPending_draws (s : State) : s.clearPending.draws = s.draws := rfl
@[simp] theorem State.clearPending_fnOut (s : State) : s.clearPending.fnOut = s.fnOut := rfl

/-! #### setLock -/

@[simp] theorem State.setLock_life (s : State) (b : Bool) : (s.setLock b).life = s.life := rfl
@[simp] theorem State.setLock_phase (s : State) (b : Bool) : (s.setLock b).phase = s.phase := rfl
@[simp] theorem State.setLock_pending (s : State) (b : Bool) : (s.setLock b).pending = s.pending := rfl
@[simp] theorem State.setLock_lock (s : State) (b : Bool) : (s.setLock b).lock = b := rfl
@[simp] theorem State.setLock_surf (s : State) (b : Bool) : (s.setLock b).surf = s.surf := rfl
@[simp] theorem State.setLock_frame (s : State) (b : Bool) : (s.setLock b).frame = s.frame := rfl
@[simp] theorem State.setLock_width (s : State) (b : Bool) : (s.setLock b).width = s.width := rfl
@[simp] theorem State.setLock_height (s : State) (b : Bool) : (s.setLock b).height = s.height := rfl
@[simp] theorem State.setLock_latch (s : State) (b : Bool) : (s.setLock b).latch = s.latch := rfl
@[simp] theorem State.setLock_lastErr (s : State) (b : Bool) : (s.setLock b).lastErr = s.lastErr := rfl
@[simp] theorem State.setLock_errCount (s : State) (b : Bool) : (s.setLock b).errCount = s.errCount := rfl
@[simp] theorem State.setLock_snap (s : State) (b : Bool) : (s.setLock b).snap = s.snap := rfl
@[simp] theorem State.setLock_wr (s : State) (b : Bool) : (s.setLock b).wr = s.wr := rfl
@[simp] theorem State.setLock_trace (s : State) (b : Bool) : (s.setLock b).trace = s.trace := rfl
@[simp] theorem State.setLock_refused (s : State) (b : Bool) : (s.setLock b).refused = s.refused := rfl
@[simp] theorem State.setLock_detacher (s : State) (b : Bool) : (s.setLock b).detacher = s.detacher := rfl
@[simp] theorem State.setLock_replies (s : State) (b : Bool) : (s.setLock b).replies = s.replies := rfl
@[simp] theorem State.setLock_listing (s : State) (b : Bool) : (s.setLock b).listing = s.listing := rfl
@[simp] theorem State.setLock_issuer (s : State) (b : Bool) : (s.setLock b).issuer = s.issuer := rfl
@[simp] theorem State.setLock_recorded (s : State) (b : Bool) : (s.setLock b).recorded = s.recorded := rfl
@[simp] theorem State.setLock_draws (s : State) (b : Bool) : (s.setLock b).draws = s.draws := rfl
@[simp] theorem State.setLock_fnOut (s : State) (b : Bool) : (s.setLock b).fnOut = s.fnOut := rfl

/-! #### goto -/

@[simp] theorem State.goto_life (s : State) (p : Phase) : (s.goto p).life = s.life := rfl
@[simp] theorem State.goto_phase (s : State) (p : Phase) : (s.goto p).phase = p := rfl
@[simp] theorem State.goto_pending (s : State) (p : Phase) : (s.goto p).pending = s.pending := rfl
@[simp] theorem State.goto_lock (s : State) (p : Phase) : (s.goto p).lock = s.lock := rfl
@[simp] theorem State.goto_surf (s : State) (p : Phase) : (s.goto p).surf = s.surf := rfl
@[simp] theorem State.goto_frame (s : State) (p : Phase) : (s.goto p).frame = s.frame := rfl
@[simp] theorem State.goto_width (s : State) (p : Phase) : (s.goto p).width = s.width := rfl
@[simp] theorem State.goto_height (s : State) (p : Phase) : (s.goto p).height = s.height := rfl
@[simp] theorem State.goto_latch (s : State) (p : Phase) : (s.goto p).latch = s.latch := rfl
@[simp] theorem State.goto_lastErr (s : State) (p : Phase) : (s.goto p).lastErr = s.lastErr := rfl
@[simp] theorem State.goto_errCount (s : State) (p : Phase) : (s.goto p).errCount = s.errCount := rfl
@[simp] theorem State.goto_snap (s : State) (p : Phase) : (s.goto p).snap = s.snap := rfl
@[simp] theorem State.goto_wr (s : State) (p : Phase) : (s.goto p).wr = s.wr := rfl
@[simp] theorem State.goto_trace (s : State) (p : Phase) : (s.goto p).trace = s.trace := rfl
@[simp] theorem State.goto_refused (s : State) (p : Phase) : (s.goto p).refused = s.refused := rfl
@[simp] theorem State.goto_detacher (s : State) (p : Phase) : (s.goto p).detacher = s.detacher := rfl
@[simp] theorem State.goto_replies (s : State) (p : Phase) : (s.goto p).replies = s.replies := rfl
@[simp] theorem State.goto_listing (s : State) (p : Phase) : (s.goto p).listing = s.listing := rfl
@[simp] theorem State.goto_issuer (s : State) (p : Phase) : (s.goto p).issuer = s.issuer := rfl
@[simp] theorem State.goto_recorded (s : State) (p : Phase) : (s.goto p).recorded = s.recorded := rfl
@[simp] theorem State.goto_draws (s : State) (p : Phase) : (s.goto p).draws = s.draws := rfl
@[simp] theorem State.goto_fnOut (s : State) (p : Phase) : (s.goto p).fnOut = s.fnOut := rfl

/-! #### writeSurface -/

@[simp] theorem State.writeSurface_life (s : State) (a : Nat) (bs : List Byte) : (s.writeSurface a bs).life = s.life := rfl
@[simp] theorem State.writeSurface_phase (s : State) (a : Nat) (bs : List Byte) : (s.writeSurface a bs).phase = s.phase := rfl
@[simp] theorem State.writeSurface_pending (s : State) (a : Nat) (bs : List Byte) : (s.writeSurface a bs).pending = s.pending := rfl
@[simp] theorem State.writeSurface_lock (s : State) (a : Nat) (bs : List Byte) : (s.writeSurface a bs).lock = s.lock := rfl
@[simp] theorem State.writeSurface_surf (s : State) (a : Nat) (bs : List Byte) : (s.writeSurface a bs).surf = memWriteList s.surf a bs := rfl
@[simp] theorem State.writeSurface_frame (s : State) (a : Nat) (bs : List Byte) : (s.writeSurface a bs).frame = s.frame := rfl
@[simp] theorem State.writeSurface_width (s : State) (a : Nat) (bs : List Byte) : (s.writeSurface a bs).width = s.width := rfl
@[simp] theorem State.writeSurface_height (s : State) (a : Nat) (bs : List Byte) : (s.writeSurface a bs).height = s.height := rfl
@[simp] theorem State.writeSurface_latch (s : State) (a : Nat) (bs : List Byte) : (s.writeSurface a bs).latch = s.latch := rfl
@[simp] theorem State.writeSurface_lastErr (s : State) (a : Nat) (bs : List Byte) : (s.writeSurface a bs).lastErr = s.lastErr := rfl
@[simp] theorem State.writeSurface_errCount (s : State) (a : Nat) (bs : List Byte) : (s.writeSurface a bs).errCount = s.errCount := rfl
@[simp] theorem State.writeSurface_snap (s : State) (a : Nat) (bs : List Byte) : (s.writeSurface a bs).snap = s.snap := rfl
@[simp] theorem State.writeSurface_wr (s : State) (a : Nat) (bs : List Byte) : (s.writeSurface a bs).wr = if s.phase = .enc then raceInsertList s.wr a bs else s.wr := rfl
@[simp] theorem State.writeSurface_trace (s : State) (a : Nat) (bs : List Byte) : (s.writeSurface a bs).trace = s.trace := rfl
@[simp] theorem State.writeSurface_refused (s : State) (a : Nat) (bs : List Byte) : (s.writeSurface a bs).refused = s.refused := rfl
@[simp] theorem State.writeSurface_detacher (s : State) (a : Nat) (bs : List Byte) : (s.writeSurface a bs).detacher = s.detacher := rfl
@[simp] theorem State.writeSurface_replies (s : State) (a : Nat) (bs : List Byte) : (s.writeSurface a bs).replies = s.replies := rfl
@[simp] theorem State.writeSurface_listing (s : State) (a : Nat) (bs : List Byte) : (s.writeSurface a bs).listing = s.listing := rfl
@[simp] theorem State.writeSurface_issuer (s : State) (a : Nat) (bs : List Byte) : (s.writeSurface a bs).issuer = s.issuer := rfl
@[simp] theorem State.writeSurface_recorded (s : State) (a : Nat) (bs : List Byte) : (s.writeSurface a bs).recorded = s.recorded := rfl
@[simp] theorem State.writeSurface_draws (s : State) (a : Nat) (bs : List Byte) : (s.writeSurface a bs).draws = s.draws := rfl
@[simp] theorem State.writeSurface_fnOut (s : State) (a : Nat) (bs : List Byte) : (s.writeSurface a bs).fnOut = s.fnOut := rfl

/-! #### unrecorded -/

@[simp] theorem State.unrecorded_life (s : State) : s.unrecorded.life = s.life := rfl
@[simp] theorem State.unrecorded_phase (s : State) : s.unrecorded.phase = s.phase := rfl
@[simp] theorem State.unrecorded_pending (s : State) : s.unrecorded.pending = s.pending := rfl
@[simp] theorem State.unrecorded_lock (s : State) : s.unrecorded.lock = s.lock := rfl
@[simp] theorem State.unrecorded_surf (s : State) : s.unrecorded.surf = s.surf := rfl
@[simp] theorem State.unrecorded_frame (s : State) : s.unrecorded.frame = s.frame := rfl
@[simp] theorem State.unrecorded_width (s : State) : s.unrecorded.width = s.width := rfl
@[simp] theorem State.unrecorded_height (s : State) : s.unrecorded.height = s.height := rfl
@[simp] theorem State.unrecorded_latch (s : State) : s.unrecorded.latch = s.latch := rfl
@[simp] theorem State.unrecorded_lastErr (s : State) : s.unrecorded.lastErr = s.lastErr := rfl
@[simp] theorem State.unrecorded_errCount (s : State) : s.unrecorded.errCount = s.errCount := rfl
@[simp] theorem State.unrecorded_snap (s : State) : s.unrecorded.snap = s.snap := rfl
@[simp] theorem State.unrecorded_wr (s : State) : s.unrecorded.wr = s.wr := rfl
@[simp] theorem State.unrecorded_trace (s : State) : s.unrecorded.trace = s.trace := rfl
@[simp] theorem State.unrecorded_refused (s : State) : s.unrecorded.refused = s.refused := rfl
@[simp] theorem State.unrecorded_detacher (s : State) : s.unrecorded.detacher = s.detacher := rfl
@[simp] theorem State.unrecorded_replies (s : State) : s.unrecorded.replies = s.replies := rfl
@[simp] theorem State.unrecorded_listing (s : State) : s.unrecorded.listing = s.listing := rfl
@[simp] theorem State.unrecorded_issuer (s : State) : s.unrecorded.issuer = s.issuer := rfl
@[simp] theorem State.unrecorded_recorded (s : State) : s.unrecorded.recorded = {} := rfl
@[simp] theorem State.unrecorded_draws (s : State) : s.unrecorded.draws = s.draws + 1 := rfl
@[simp] theorem State.unrecorded_fnOut (s : State) : s.unrecorded.fnOut = s.fnOut := rfl

/-! #### take -/

@[simp] theorem State.take_life (s : State) (l : Line) (ls : List Line) : (s.take l ls).life = s.life := rfl
@[simp] theorem State.take_phase (s : State) (l : Line) (ls : List Line) : (s.take l ls).phase = s.phase := rfl
@[simp] theorem State.take_pending (s : State) (l : Line) (ls : List Line) : (s.take l ls).pending = s.pending := rfl
@[simp] theorem State.take_lock (s : State) (l : Line) (ls : List Line) : (s.take l ls).lock = s.lock := rfl
@[simp] theorem State.take_surf (s : State) (l : Line) (ls : List Line) : (s.take l ls).surf = s.surf := rfl
@[simp] theorem State.take_frame (s : State) (l : Line) (ls : List Line) : (s.take l ls).frame = s.frame := rfl
@[simp] theorem State.take_width (s : State) (l : Line) (ls : List Line) : (s.take l ls).width = s.width := rfl
@[simp] theorem State.take_height (s : State) (l : Line) (ls : List Line) : (s.take l ls).height = s.height := rfl
@[simp] theorem State.take_latch (s : State) (l : Line) (ls : List Line) : (s.take l ls).latch = s.latch := rfl
@[simp] theorem State.take_lastErr (s : State) (l : Line) (ls : List Line) : (s.take l ls).lastErr = s.lastErr := rfl
@[simp] theorem State.take_errCount (s : State) (l : Line) (ls : List Line) : (s.take l ls).errCount = s.errCount := rfl
@[simp] theorem State.take_snap (s : State) (l : Line) (ls : List Line) : (s.take l ls).snap = s.snap := rfl
@[simp] theorem State.take_wr (s : State) (l : Line) (ls : List Line) : (s.take l ls).wr = s.wr := rfl
@[simp] theorem State.take_trace (s : State) (l : Line) (ls : List Line) : (s.take l ls).trace = s.trace := rfl
@[simp] theorem State.take_refused (s : State) (l : Line) (ls : List Line) : (s.take l ls).refused = s.refused := rfl
@[simp] theorem State.take_detacher (s : State) (l : Line) (ls : List Line) : (s.take l ls).detacher = s.detacher := rfl
@[simp] theorem State.take_replies (s : State) (l : Line) (ls : List Line) : (s.take l ls).replies = s.replies := rfl
@[simp] theorem State.take_listing (s : State) (l : Line) (ls : List Line) : (s.take l ls).listing = ls := rfl
@[simp] theorem State.take_issuer (s : State) (l : Line) (ls : List Line) : (s.take l ls).issuer = issuerOf l.agent s.issuer := rfl
@[simp] theorem State.take_recorded (s : State) (l : Line) (ls : List Line) : (s.take l ls).recorded = l.draws := rfl
@[simp] theorem State.take_draws (s : State) (l : Line) (ls : List Line) : (s.take l ls).draws = s.draws := rfl
@[simp] theorem State.take_fnOut (s : State) (l : Line) (ls : List Line) : (s.take l ls).fnOut = s.fnOut := rfl

/-! #### hook, raiseError, hostError, releaseDetacher: the fields they leave -/

@[simp] theorem State.hook_life (s : State) : s.hook.life = s.life := by unfold State.hook; split <;> rfl
@[simp] theorem State.hook_phase (s : State) : s.hook.phase = s.phase := by unfold State.hook; split <;> rfl
@[simp] theorem State.hook_lock (s : State) : s.hook.lock = s.lock := by unfold State.hook; split <;> rfl
@[simp] theorem State.hook_surf (s : State) : s.hook.surf = s.surf := by unfold State.hook; split <;> rfl
@[simp] theorem State.hook_frame (s : State) : s.hook.frame = s.frame := by unfold State.hook; split <;> rfl
@[simp] theorem State.hook_width (s : State) : s.hook.width = s.width := by unfold State.hook; split <;> rfl
@[simp] theorem State.hook_height (s : State) : s.hook.height = s.height := by unfold State.hook; split <;> rfl
@[simp] theorem State.hook_latch (s : State) : s.hook.latch = s.latch := by unfold State.hook; split <;> rfl
@[simp] theorem State.hook_lastErr (s : State) : s.hook.lastErr = s.lastErr := by unfold State.hook; split <;> rfl
@[simp] theorem State.hook_errCount (s : State) : s.hook.errCount = s.errCount := by unfold State.hook; split <;> rfl
@[simp] theorem State.hook_snap (s : State) : s.hook.snap = s.snap := by unfold State.hook; split <;> rfl
@[simp] theorem State.hook_wr (s : State) : s.hook.wr = s.wr := by unfold State.hook; split <;> rfl
@[simp] theorem State.hook_trace (s : State) : s.hook.trace = s.trace := by unfold State.hook; split <;> rfl
@[simp] theorem State.hook_refused (s : State) : s.hook.refused = s.refused := by unfold State.hook; split <;> rfl
@[simp] theorem State.hook_detacher (s : State) : s.hook.detacher = s.detacher := by unfold State.hook; split <;> rfl
@[simp] theorem State.hook_replies (s : State) : s.hook.replies = s.replies := by unfold State.hook; split <;> rfl
@[simp] theorem State.hook_listing (s : State) : s.hook.listing = s.listing := by unfold State.hook; split <;> rfl
@[simp] theorem State.hook_issuer (s : State) : s.hook.issuer = s.issuer := by unfold State.hook; split <;> rfl
@[simp] theorem State.hook_recorded (s : State) : s.hook.recorded = s.recorded := by unfold State.hook; split <;> rfl
@[simp] theorem State.hook_draws (s : State) : s.hook.draws = s.draws := by unfold State.hook; split <;> rfl
@[simp] theorem State.hook_fnOut (s : State) : s.hook.fnOut = s.fnOut := by unfold State.hook; split <;> rfl
@[simp] theorem State.hook_pending (s : State) : s.hook.pending = (decide (s.life = .attached) || s.pending) := by
  unfold State.hook; split <;> simp_all
@[simp] theorem State.raiseError_life (s : State) (c : ErrorCode) : (s.raiseError c).life = s.life := by cases c <;> rfl
@[simp] theorem State.raiseError_phase (s : State) (c : ErrorCode) : (s.raiseError c).phase = s.phase := by cases c <;> rfl
@[simp] theorem State.raiseError_pending (s : State) (c : ErrorCode) : (s.raiseError c).pending = s.pending := by cases c <;> rfl
@[simp] theorem State.raiseError_lock (s : State) (c : ErrorCode) : (s.raiseError c).lock = s.lock := by cases c <;> rfl
@[simp] theorem State.raiseError_surf (s : State) (c : ErrorCode) : (s.raiseError c).surf = s.surf := by cases c <;> rfl
@[simp] theorem State.raiseError_frame (s : State) (c : ErrorCode) : (s.raiseError c).frame = s.frame := by cases c <;> rfl
@[simp] theorem State.raiseError_width (s : State) (c : ErrorCode) : (s.raiseError c).width = s.width := by cases c <;> rfl
@[simp] theorem State.raiseError_height (s : State) (c : ErrorCode) : (s.raiseError c).height = s.height := by cases c <;> rfl
@[simp] theorem State.raiseError_latch (s : State) (c : ErrorCode) : (s.raiseError c).latch = s.latch := by cases c <;> rfl
@[simp] theorem State.raiseError_lastErr (s : State) (c : ErrorCode) : (s.raiseError c).lastErr = c := by cases c <;> rfl
theorem State.raiseError_errCount (s : State) (c : ErrorCode) :
    (s.raiseError c).errCount = if c = .transportFailure then saturatingSucc s.errCount else s.errCount := by
  cases c <;> rfl
@[simp] theorem State.raiseError_snap (s : State) (c : ErrorCode) : (s.raiseError c).snap = s.snap := by cases c <;> rfl
@[simp] theorem State.raiseError_wr (s : State) (c : ErrorCode) : (s.raiseError c).wr = s.wr := by cases c <;> rfl
theorem State.raiseError_trace (s : State) (c : ErrorCode) :
    (s.raiseError c).trace = if c = .transportFailure then s.trace ++ [.log .transportFailure] else s.trace := by
  cases c <;> rfl
@[simp] theorem State.raiseError_refused (s : State) (c : ErrorCode) : (s.raiseError c).refused = s.refused := by cases c <;> rfl
@[simp] theorem State.raiseError_detacher (s : State) (c : ErrorCode) : (s.raiseError c).detacher = s.detacher := by cases c <;> rfl
@[simp] theorem State.raiseError_replies (s : State) (c : ErrorCode) : (s.raiseError c).replies = s.replies := by cases c <;> rfl
@[simp] theorem State.raiseError_listing (s : State) (c : ErrorCode) : (s.raiseError c).listing = s.listing := by cases c <;> rfl
@[simp] theorem State.raiseError_issuer (s : State) (c : ErrorCode) : (s.raiseError c).issuer = s.issuer := by cases c <;> rfl
@[simp] theorem State.raiseError_recorded (s : State) (c : ErrorCode) : (s.raiseError c).recorded = s.recorded := by cases c <;> rfl
@[simp] theorem State.raiseError_draws (s : State) (c : ErrorCode) : (s.raiseError c).draws = s.draws := by cases c <;> rfl
@[simp] theorem State.raiseError_fnOut (s : State) (c : ErrorCode) : (s.raiseError c).fnOut = s.fnOut := by cases c <;> rfl
@[simp] theorem State.releaseDetacher_life (s : State) : s.releaseDetacher.life = s.life := by
  unfold State.releaseDetacher; split <;> rfl
@[simp] theorem State.releaseDetacher_phase (s : State) : s.releaseDetacher.phase = s.phase := by
  unfold State.releaseDetacher; split <;> rfl
@[simp] theorem State.releaseDetacher_pending (s : State) : s.releaseDetacher.pending = s.pending := by
  unfold State.releaseDetacher; split <;> rfl
@[simp] theorem State.releaseDetacher_lock (s : State) : s.releaseDetacher.lock = s.lock := by
  unfold State.releaseDetacher; split <;> rfl
@[simp] theorem State.releaseDetacher_surf (s : State) : s.releaseDetacher.surf = s.surf := by
  unfold State.releaseDetacher; split <;> rfl
@[simp] theorem State.releaseDetacher_frame (s : State) : s.releaseDetacher.frame = s.frame := by
  unfold State.releaseDetacher; split <;> rfl
@[simp] theorem State.releaseDetacher_width (s : State) : s.releaseDetacher.width = s.width := by
  unfold State.releaseDetacher; split <;> rfl
@[simp] theorem State.releaseDetacher_height (s : State) : s.releaseDetacher.height = s.height := by
  unfold State.releaseDetacher; split <;> rfl
@[simp] theorem State.releaseDetacher_latch (s : State) : s.releaseDetacher.latch = s.latch := by
  unfold State.releaseDetacher; split <;> rfl
@[simp] theorem State.releaseDetacher_lastErr (s : State) : s.releaseDetacher.lastErr = s.lastErr := by
  unfold State.releaseDetacher; split <;> rfl
@[simp] theorem State.releaseDetacher_errCount (s : State) : s.releaseDetacher.errCount = s.errCount := by
  unfold State.releaseDetacher; split <;> rfl
@[simp] theorem State.releaseDetacher_snap (s : State) : s.releaseDetacher.snap = s.snap := by
  unfold State.releaseDetacher; split <;> rfl
@[simp] theorem State.releaseDetacher_wr (s : State) : s.releaseDetacher.wr = s.wr := by
  unfold State.releaseDetacher; split <;> rfl
@[simp] theorem State.releaseDetacher_trace (s : State) : s.releaseDetacher.trace = s.trace := by
  unfold State.releaseDetacher; split <;> rfl
@[simp] theorem State.releaseDetacher_refused (s : State) : s.releaseDetacher.refused = s.refused := by
  unfold State.releaseDetacher; split <;> rfl
@[simp] theorem State.releaseDetacher_listing (s : State) : s.releaseDetacher.listing = s.listing := by
  unfold State.releaseDetacher; split <;> rfl
@[simp] theorem State.releaseDetacher_issuer (s : State) : s.releaseDetacher.issuer = s.issuer := by
  unfold State.releaseDetacher; split <;> rfl
@[simp] theorem State.releaseDetacher_recorded (s : State) : s.releaseDetacher.recorded = s.recorded := by
  unfold State.releaseDetacher; split <;> rfl
@[simp] theorem State.releaseDetacher_draws (s : State) : s.releaseDetacher.draws = s.draws := by
  unfold State.releaseDetacher; split <;> rfl
@[simp] theorem State.releaseDetacher_fnOut (s : State) : s.releaseDetacher.fnOut = s.fnOut := by
  unfold State.releaseDetacher; split <;> rfl
@[simp] theorem State.releaseDetacher_detacher (s : State) : s.releaseDetacher.detacher = none := by
  unfold State.releaseDetacher; split <;> simp_all

end Sys2Proof.Machine
end

