-- ==== Sys2Proof/Laws/Step.lean ====
section
/-! SUPPORT. What a step can be, and what each shared operation answers, said once. -/

namespace Sys2Proof.Machine

/-- A sequencer step is taken when enabled and otherwise leaves the state. -/
theorem whenEnabled_next (b : Bool) (s t u : State) :
    whenEnabled b s t = .next u ↔ (b = true ∧ u = t) ∨ (b = false ∧ u = s) := by
  cases b <;> simp [whenEnabled, eq_comm]

theorem rangeBad_iff (a n size : Nat) : rangeBad a n size = true ↔ n = 0 ∨ a + n > size := by
  simp [rangeBad]

theorem rangeBad_false_iff (a n size : Nat) : rangeBad a n size = false ↔ n ≠ 0 ∧ a + n ≤ size := by
  simp [rangeBad]

theorem State.present_iff (s : State) : s.present = true ↔ s.life = .attached ∨ s.life = .detaching := by
  unfold State.present; cases s.life <;> simp

/-- ATTACH's geometry check passes exactly on the admitted geometries (R152). -/
theorem geometryRefusal_none_iff (w h : Word) (bpc : Byte) :
    geometryRefusal w h bpc = none ↔ bpc = 8 ∧ geometryOk w.toNat h.toNat = true := by
  simp only [geometryRefusal, geometryOk, Bool.and_eq_true, decide_eq_true_eq]
  split
  · rename_i h1; simp only [reduceCtorEq, false_iff]; exact fun h => h1 h.1
  · split
    · rename_i h1 h2; simp only [reduceCtorEq, false_iff]; omega
    · split
      · rename_i h1 h2 h3; simp only [reduceCtorEq, false_iff]; omega
      · rename_i h1 h2 h3
        simp only [true_iff]
        refine ⟨by simpa using h1, ?_⟩
        omega

/-- A step that answers a next state either ran an instruction or was complete by itself. -/
theorem step_next_cases {s t : State} (h : step s = .next t) :
    (∃ i u, s.fetch = .run i u ∧ exec i u = .next t) ∨ s.fetch = .done t := by
  unfold step at h
  split at h
  · rename_i i u hf; exact .inl ⟨i, u, hf, h⟩
  · rename_i u hf; cases h; exact .inr hf
  · cases h

/-- Where a turn's instruction runs from, and what a complete turn is: nothing but the listing, the issuer and the
draws' bookkeeping differs, and the only other complete turn is an IllegalCommand. -/
theorem fetch_cases (s : State) :
    (∃ i, s.fetch = .run i s.unrecorded) ∨
    (∃ l rest i, s.fetch = .run i (s.take l rest)) ∨
    s.fetch = .done s ∨
    (∃ l rest, s.fetch = .done ((s.take l rest).hostError .illegalCommand)) ∨
    (∃ f, s.fetch = .stop f) := by
  have own : (∃ i, s.ownTurn = .run i s.unrecorded) ∨ s.ownTurn = .done s := by
    unfold State.ownTurn
    split
    · exact .inl ⟨_, rfl⟩
    · exact .inr rfl
  have mis : ∀ (l : Line) (u : State), u.misissued l.agent = .done (u.hostError .illegalCommand) ∨
      ∃ f, u.misissued l.agent = .stop f := by
    intro l u
    cases l.agent
    · exact .inl rfl
    · exact .inr ⟨_, rfl⟩
    · exact .inr ⟨_, rfl⟩
  unfold State.fetch
  split
  · rcases own with ⟨i, h⟩ | h
    · exact .inl ⟨i, h⟩
    · exact .inr (.inr (.inl h))
  · rename_i l rest _
    split
    · rcases own with ⟨i, h⟩ | h
      · exact .inl ⟨i, h⟩
      · exact .inr (.inr (.inl h))
    · unfold lineTurn
      split
      · split
        · exact .inr (.inl ⟨l, rest, _, rfl⟩)
        · rcases mis l (s.take l rest) with h | h
          · exact .inr (.inr (.inr (.inl ⟨l, rest, h⟩)))
          · exact .inr (.inr (.inr (.inr h)))
      · rcases mis l (s.take l rest) with h | h
        · exact .inr (.inr (.inr (.inl ⟨l, rest, h⟩)))
        · exact .inr (.inr (.inr (.inr h)))

end Sys2Proof.Machine
end

