-- ==== Sys2Proof/Laws/Exec.lean ====
section
/-! SUPPORT. For each meaning, everything it can answer, said once; and what fetching a placed word needs. -/

namespace Sys2Proof.Machine

/-! ### Host commands -/

theorem execAttach_cases {w h : Word} {bpc : Byte} {pin xport : Handle} {s t : State}
    (e : execAttach w h bpc pin xport s = .next t) :
    (s.life ≠ .uninit ∧ t = s.hostError .illegalState) ∨
    (s.life = .uninit ∧ ∃ why, t = s.refuse why) ∨
    (s.life = .uninit ∧ t = s.attachFailed .configurationError) ∨
    (s.life = .uninit ∧ geometryOk w.toNat h.toNat = true ∧ t = s.drew.attachDone w h) ∨
    (s.life = .uninit ∧ t = s.drew.attachFailed .allocationFailure) := by
  unfold execAttach at e
  split at e
  · rename_i hl; cases e; exact .inl ⟨hl, rfl⟩
  · rename_i hl
    rw [not_not] at hl
    split at e
    · cases e; exact .inr (.inl ⟨hl, _, rfl⟩)
    · rename_i hg
      split at e
      · cases e; exact .inr (.inr (.inl ⟨hl, rfl⟩))
      · split at e
        · cases e; exact .inr (.inr (.inr (.inl ⟨hl, ((geometryRefusal_none_iff ..).mp hg).2, rfl⟩)))
        · cases e; exact .inr (.inr (.inr (.inr ⟨hl, rfl⟩)))

theorem execDetach_cases {s t : State} (e : execDetach s = .next t) :
    (s.life ≠ .attached ∧ t = s.hostError .illegalState) ∨
    (s.life = .attached ∧ t = { s with life := .detaching, pending := false, detacher := some s.issuer }) := by
  unfold execDetach at e
  split at e
  · rename_i hl; cases e; exact .inl ⟨hl, rfl⟩
  · rename_i hl; cases e; exact .inr ⟨not_not.mp hl, rfl⟩

theorem execSwrite_cases {off : Word} {bs : List Byte} {s t : State} (e : execSwrite off bs s = .next t) :
    (s.present = false ∧ t = s.hostError .illegalState) ∨
    (s.present = true ∧ t = s.refuse .surfaceRange) ∨
    (s.present = true ∧ bs ≠ [] ∧ off.toNat + bs.length ≤ s.surfSize ∧
      t = ((s.writeSurface off.toNat bs).hook).reply .noError .nothing) := by
  unfold execSwrite at e
  split at e
  · rename_i hp; cases e; exact .inl ⟨by simpa using hp, rfl⟩
  · rename_i hp
    have hp : s.present = true := by simpa using hp
    split at e
    · cases e; exact .inr (.inl ⟨hp, rfl⟩)
    · rename_i hr
      cases e
      obtain ⟨h1, h2⟩ := (rangeBad_false_iff ..).mp (Bool.eq_false_iff.mpr hr)
      exact .inr (.inr ⟨hp, by simpa using h1, h2, rfl⟩)

theorem execSread_cases {off n : Word} {s t : State} (e : execSread off n s = .next t) :
    (s.present = false ∧ t = s.hostError .illegalState) ∨
    (s.present = true ∧ t = s.refuse .surfaceRange) ∨
    (s.present = true ∧ t = s.reply .noError (.bytes (memReadList s.surf off.toNat n.toNat))) := by
  unfold execSread at e
  split at e
  · rename_i hp; cases e; exact .inl ⟨by simpa using hp, rfl⟩
  · rename_i hp
    have hp : s.present = true := by simpa using hp
    split at e <;> cases e
    · exact .inr (.inl ⟨hp, rfl⟩)
    · exact .inr (.inr ⟨hp, rfl⟩)

theorem execFread_cases {off n : Word} {s t : State} (e : execFread off n s = .next t) :
    (s.present = false ∧ t = s.hostError .illegalState) ∨
    (s.present = true ∧ t = s.refuse .frameRange) ∨
    (s.present = true ∧ t = s.reply .noError (.bytes (frameReadList s.frame off.toNat n.toNat))) := by
  unfold execFread at e
  split at e
  · rename_i hp; cases e; exact .inl ⟨by simpa using hp, rfl⟩
  · rename_i hp
    have hp : s.present = true := by simpa using hp
    split at e <;> cases e
    · exact .inr (.inl ⟨hp, rfl⟩)
    · exact .inr (.inr ⟨hp, rfl⟩)

theorem execMstore_cases {off : Word} {v : Byte} {s t : State} (e : execMstore off v s = .next t) :
    (s.present = false ∧ t = s.hostError .illegalState) ∨
    (s.present = true ∧ t = s.refuse .surfaceRange) ∨
    (s.present = true ∧ off.toNat + 1 ≤ s.surfSize ∧
      (t = (((s.writeSurface off.toNat [v]).drew).hook).reply .noError .nothing ∨
       t = ((s.writeSurface off.toNat [v]).drew).reply .noError .nothing)) := by
  unfold execMstore at e
  split at e
  · rename_i hp; cases e; exact .inl ⟨by simpa using hp, rfl⟩
  · rename_i hp
    have hp : s.present = true := by simpa using hp
    split at e
    · cases e; exact .inr (.inl ⟨hp, rfl⟩)
    · rename_i hr
      obtain ⟨-, h2⟩ := (rangeBad_false_iff ..).mp (Bool.eq_false_iff.mpr hr)
      refine .inr (.inr ⟨hp, h2, ?_⟩)
      cases hd : s.hookDraw <;> simp only [hd, Bool.false_eq_true, if_false, if_true] at e <;> cases e
      · exact .inr rfl
      · exact .inl rfl

theorem execReqfl_cases {s t : State} (e : execReqfl s = .next t) :
    (s.life = .attached ∧ t = s.request.reply .noError .nothing) ∨
    ((s.life = .detaching ∨ s.life = .detached) ∧ t = s.reply .noError .nothing) ∨
    (s.life = .uninit ∧ t = s.hostError .illegalState) := by
  unfold execReqfl at e
  cases hl : s.life <;> simp only [hl] at e <;> cases e
  · exact .inr (.inr ⟨rfl, rfl⟩)
  · exact .inl ⟨rfl, rfl⟩
  · exact .inr (.inl ⟨.inl rfl, rfl⟩)
  · exact .inr (.inl ⟨.inr rfl, rfl⟩)

/-! ### The state ATTACH leaves, field by field -/

@[simp] theorem State.attachDone_life (s : State) (w h : Word) : (s.attachDone w h).life = .attached := rfl
@[simp] theorem State.attachDone_phase (s : State) (w h : Word) : (s.attachDone w h).phase = .idle := rfl
@[simp] theorem State.attachDone_pending (s : State) (w h : Word) : (s.attachDone w h).pending = false := rfl
@[simp] theorem State.attachDone_lock (s : State) (w h : Word) : (s.attachDone w h).lock = false := rfl
@[simp] theorem State.attachDone_surf (s : State) (w h : Word) : (s.attachDone w h).surf = [] := rfl
@[simp] theorem State.attachDone_frame (s : State) (w h : Word) :
    (s.attachDone w h).frame = frameInit w.toNat h.toNat := rfl
@[simp] theorem State.attachDone_width (s : State) (w h : Word) : (s.attachDone w h).width = w := rfl
@[simp] theorem State.attachDone_height (s : State) (w h : Word) : (s.attachDone w h).height = h := rfl
@[simp] theorem State.attachDone_latch (s : State) (w h : Word) : (s.attachDone w h).latch = .high := rfl
@[simp] theorem State.attachDone_lastErr (s : State) (w h : Word) : (s.attachDone w h).lastErr = .noError := rfl
@[simp] theorem State.attachDone_errCount (s : State) (w h : Word) : (s.attachDone w h).errCount = 0 := rfl
@[simp] theorem State.attachDone_snap (s : State) (w h : Word) : (s.attachDone w h).snap = [] := rfl
@[simp] theorem State.attachDone_wr (s : State) (w h : Word) : (s.attachDone w h).wr = [] := rfl
@[simp] theorem State.attachDone_refused (s : State) (w h : Word) : (s.attachDone w h).refused = s.refused := rfl
@[simp] theorem State.attachDone_detacher (s : State) (w h : Word) : (s.attachDone w h).detacher = s.detacher := rfl
theorem State.attachDone_trace (s : State) (w h : Word) :
    (s.attachDone w h).trace = s.trace ++ [.pin .high] ++ [.attached w h] := rfl

/-! ### A placed word -/

/-- A word that decodes: its opcode, its class, and its instruction's own word. -/
theorem decode_ok {c : CmdWord} {i : Instr} (h : decode c = .ok i) :
    (encode i).op = c.op ∧ opClass c.op = some i.cls ∧ listedOpcode c.op = true ∧
    encode i = { op := c.op, args := operandsOf c.op c.args } := by
  obtain ⟨op, a⟩ := c
  have hop : op = BitVec.ofNat 8 op.toNat := by simp
  unfold decode at h
  simp only at h
  split at h
  all_goals first
    | (rename_i he
       cases h
       rw [he] at hop
       subst hop
       exact ⟨rfl, by dsimp only [Instr.cls]; decide, by dsimp only; decide, rfl⟩)
    | (cases h)

/-- The agent R86 gives an opcode does not wait in DETACH. -/
theorem State.waits_agentFor (s : State) (op : Byte) : s.waits (s.agentFor op) = false := by
  unfold State.agentFor
  cases opClass op with
  | none => by_cases h : s.detacher = some 0 <;> simp [State.waits, h]
  | some c => cases c <;> first | rfl | (by_cases h : s.detacher = some 0 <;> simp [State.waits, h])

/-- The agent R86 gives an opcode may issue it. -/
theorem State.mayIssue_agentFor (s : State) {op : Byte} {c : OpClass} (h : opClass op = some c) :
    (s.agentFor op).mayIssue c = true := by
  unfold State.agentFor
  rw [h]
  cases c <;> rfl

end Sys2Proof.Machine
end

