-- ==== Sys2Proof/Laws/Invariant.lean ====
section
/-! SUPPORT. Small lemmas about the invariant of a block: which fields it reads, the trace's last transfer, two
states that meet it, and what requests, ACQs and bursts are. -/

namespace Sys2Proof.Machine

/-- The transfer an event list ends with, one event later. -/
theorem lastXfer_append_one (tr : List Event) (e : Event) :
    lastXfer (tr ++ [e]) = match e with | .xfer bs => some bs | _ => lastXfer tr := by
  induction tr with
  | nil => cases e <;> rfl
  | cons d tr ih =>
    simp only [List.cons_append, lastXfer, ih]
    cases e <;> simp

/-- The invariant reads only these fields, and the trace only for its last transfer while one is in flight. -/
theorem State.Inv.of_same_fields {s t : State} (h : s.Inv)
    (h1 : t.life = s.life) (h2 : t.phase = s.phase) (h3 : t.pending = s.pending) (h4 : t.lock = s.lock)
    (h5 : t.surf = s.surf) (h6 : t.frame = s.frame) (h7 : t.width = s.width) (h8 : t.height = s.height)
    (h9 : t.latch = s.latch) (h10 : t.snap = s.snap) (h11 : t.wr = s.wr) (h12 : t.detacher = s.detacher)
    (h13 : t.phase = .wait → lastXfer t.trace = lastXfer s.trace) : t.Inv := by
  have hp : t.present = s.present := by simp only [State.present, h1]
  have hss : t.surfSize = s.surfSize := by simp only [State.surfSize, h7, h8]
  have hfl : t.frameLen = s.frameLen := by simp only [State.frameLen, h7, h8]
  constructor
  · rw [h4, h2]; exact h.lock_phase
  · rw [hp, h2, h3, h5, h6, h7, h8, h9]; exact h.absent
  · rw [hp, h7, h8]; exact h.geometry
  · rw [hp, h9, h2]; exact h.latch_level
  · rw [h1, h3]; exact h.detaching_quiet
  · rw [h12, h1]; exact h.detacher_life
  · rw [h5, hss]; exact h.surf_ok
  · rw [h10, hss]; exact h.snap_ok
  · rw [h11, hss]; exact h.wr_ok
  · rw [h2, h10, h11]; exact h.window_closed
  · rw [hp, h7, h8, h6]; exact h.frame_dense
  · rw [hp, h7, h8, h6]; exact h.frame_framing
  · intro hw
    have := h.in_flight (by rw [← h2]; exact hw)
    simp only [State.inFlight, hw, if_true, h13 hw, h6, hfl]
    simpa [State.inFlight, ← h2, hw] using this

/-- After reset every memory is in its canonical form (R40). -/
theorem reset_memories_canonical :
    memWf State.reset.surf = true ∧ memWf State.reset.snap = true ∧ raceWf State.reset.wr = true := by decide

/-- A flush is in flight only on a device that has its memories. -/
theorem State.Inv.present_of_phase {s : State} (h : s.Inv) (hp : s.phase ≠ .idle) : s.present = true := by
  by_contra hn
  exact hp (h.absent (by simpa using hn)).1

/-- FRAMEINIT's frame has its framing bytes (R105). -/
theorem framingIntact_frameInit (w h : Nat) : framingIntact w h (frameInit w h) := by
  intro i hi _
  rw [frameRead?_frameInit]; simp [hi]

/-- The state a successful ATTACH of an admitted geometry leaves meets the invariant (R41). -/
theorem State.attachDone_inv {s : State} {w h : Word} (hd : s.detacher = none)
    (hg : geometryOk w.toNat h.toNat = true) : (s.attachDone w h).Inv := by
  constructor
  · simp
  · simp [State.present]
  · intro _; simpa using hg
  · simp
  · simp
  · simp [hd]
  · simp [memWf, memWfFrom, memBelow]
  · simp [memWf, memWfFrom, memBelow]
  · simp [raceWf, memBelow]
  · simp
  · intro _; simp [frameDense, frameInit_addresses]
  · intro _; simpa using framingIntact_frameInit _ _
  · simp

/-- A request while attached keeps the invariant (R26). -/
theorem State.Inv.request {s : State} (h : s.Inv) (hl : s.life = .attached) : s.request.Inv :=
  { lock_phase := h.lock_phase
    absent := fun hn => by simp [State.present, hl] at hn
    geometry := h.geometry
    latch_level := h.latch_level
    detaching_quiet := fun hd => by simp [hl] at hd
    detacher_life := h.detacher_life
    surf_ok := h.surf_ok
    snap_ok := h.snap_ok
    wr_ok := h.wr_ok
    window_closed := h.window_closed
    frame_dense := h.frame_dense
    frame_framing := h.frame_framing
    in_flight := h.in_flight }

/-! ### Requests, ACQs and bursts -/

/-- Only an attached device is asked for a flush (R26, R153). -/
theorem State.attached_of_makesRequest {s : State} {i : Instr} (h : s.makesRequest i = true) : s.life = .attached := by
  cases i <;> simp [State.makesRequest] at h <;> first | exact h | exact h.1 | exact h.1.1

/-- An ACQ is taken or not. -/
theorem acqTaken_eq_zero_or_one (i : Instr) (s : State) : acqTaken i s = 0 ∨ acqTaken i s = 1 := by
  simp only [acqTaken]; split <;> simp

/-- An ACQ that is taken makes no request and finds one outstanding (R121). -/
theorem acqTaken_eq_one {i : Instr} {s : State} (h : acqTaken i s = 1) :
    i = .acq ∧ s.makesRequest i = false ∧ s.pending = true := by
  by_cases hc : i = .acq ∧ s.acqEnabled = true
  · obtain ⟨rfl, h'⟩ := hc
    simp only [State.acqEnabled, Bool.and_eq_true] at h'
    exact ⟨rfl, rfl, h'.2⟩
  · simp [acqTaken, hc] at h

/-- An ACQ that is taken ends the burst under way; anything else leaves it or begins one. -/
theorem burstAfter_of_taken {u : Bool} {i : Instr} {s : State} (h : acqTaken i s = 1) : burstAfter u i s = false := by
  simp [burstAfter, h]

theorem burstAfter_of_not_taken {u : Bool} {i : Instr} {s : State} (h : acqTaken i s = 0) :
    burstAfter u i s = (u || s.makesRequest i) := by
  simp [burstAfter, h]

end Sys2Proof.Machine
end

