-- ==== Sys2Proof/Laws/PerInstr.lean ====
section
/-! SUPPORT. Statements made of every instruction as syntax, one lemma per constructor. Family RoundTrip: the encoded
instruction decodes to itself, its opcode is listed, and the opcode's class is the instruction's. -/

namespace Sys2Proof.Laws.RoundTrip

/-- Decoding the encoded instruction gives it back; its opcode is one R86 lists, of the instruction's class. -/
def Statement (i : Instr) : Prop :=
  decode (encode i) = .ok i ∧ listedOpcode (encode i).op = true ∧ opClass (encode i).op = some i.cls

theorem attach (w h : Word) (bpc : Byte) (pin xport : Handle) : Statement (.attach w h bpc pin xport) :=
  ⟨rfl, rfl, show opClass 0x01 = some .hcmd by decide⟩
theorem detach : Statement .detach :=
  ⟨rfl, rfl, show opClass 0x02 = some .hcmd by decide⟩
theorem swrite (off : Word) (bs : List Byte) : Statement (.swrite off bs) :=
  ⟨rfl, rfl, show opClass 0x03 = some .hcmd by decide⟩
theorem sread (off n : Word) : Statement (.sread off n) :=
  ⟨rfl, rfl, show opClass 0x04 = some .hcmd by decide⟩
theorem mstore (off : Word) (v : Byte) : Statement (.mstore off v) :=
  ⟨rfl, rfl, show opClass 0x05 = some .hcmd by decide⟩
theorem reqfl : Statement .reqfl :=
  ⟨rfl, rfl, show opClass 0x06 = some .hcmd by decide⟩
theorem status : Statement .status :=
  ⟨rfl, rfl, show opClass 0x07 = some .hcmd by decide⟩
theorem fread (off n : Word) : Statement (.fread off n) :=
  ⟨rfl, rfl, show opClass 0x08 = some .hcmd by decide⟩
theorem acq : Statement .acq :=
  ⟨rfl, rfl, show opClass 0x10 = some .uop by decide⟩
theorem enc : Statement .enc :=
  ⟨rfl, rfl, show opClass 0x11 = some .uop by decide⟩
theorem xfer : Statement .xfer :=
  ⟨rfl, rfl, show opClass 0x12 = some .uop by decide⟩
theorem xdone (r : Answer) : Statement (.xdone r) :=
  ⟨rfl, rfl, show opClass 0x13 = some .uop by decide⟩
theorem llow : Statement .llow :=
  ⟨rfl, rfl, show opClass 0x14 = some .uop by decide⟩
theorem lhigh : Statement .lhigh :=
  ⟨rfl, rfl, show opClass 0x15 = some .uop by decide⟩
theorem rel : Statement .rel :=
  ⟨rfl, rfl, show opClass 0x16 = some .uop by decide⟩
theorem dfin : Statement .dfin :=
  ⟨rfl, rfl, show opClass 0x17 = some .uop by decide⟩
theorem luma (r g b : Byte) : Statement (.luma r g b) :=
  ⟨rfl, rfl, show opClass 0x20 = some .func by decide⟩
theorem thresh (gray : Byte) : Statement (.thresh gray) :=
  ⟨rfl, rfl, show opClass 0x21 = some .func by decide⟩
theorem pack8 (b0 b1 b2 b3 b4 b5 b6 b7 : Bool) : Statement (.pack8 b0 b1 b2 b3 b4 b5 b6 b7) :=
  ⟨rfl, rfl, show opClass 0x22 = some .func by decide⟩
theorem laddr (y : Byte) : Statement (.laddr y) :=
  ⟨rfl, rfl, show opClass 0x23 = some .func by decide⟩
theorem frameinit (w h : Word) : Statement (.frameinit w h) :=
  ⟨rfl, rfl, show opClass 0x24 = some .func by decide⟩

end Sys2Proof.Laws.RoundTrip
end

