-- ==== Sys2Proof/Tests/Slice0.lean ====
section
/-! SUPPORT. The model's own tests: ill-formed terms, decoding words written out from R85–R87, one step of each
instruction with the value 95_test_vectors.md or the rule gives, and a witness for every statement with hypotheses. -/

namespace Sys2Proof.Tests

open Sys2Proof Sys2Proof.Machine

/-! ### Ill-formed terms (WellFormed) -/

theorem test_wf_reference_attach : (Instr.attach 128 128 8 ⟨0, true⟩ ⟨0, true⟩).wellFormed = true := by decide
theorem test_illformed_width_not_multiple_of_8 :
    (Instr.attach 12 1 8 ⟨0, true⟩ ⟨0, true⟩).wellFormed = false := by decide
theorem test_illformed_width_zero : (Instr.attach 0 1 8 ⟨0, true⟩ ⟨0, true⟩).wellFormed = false := by decide
theorem test_illformed_height_zero : (Instr.attach 8 0 8 ⟨0, true⟩ ⟨0, true⟩).wellFormed = false := by decide
theorem test_illformed_height_256 : (Instr.attach 8 256 8 ⟨0, true⟩ ⟨0, true⟩).wellFormed = false := by decide
theorem test_illformed_bpc : (Instr.attach 8 1 5 ⟨0, true⟩ ⟨0, true⟩).wellFormed = false := by decide
theorem test_illformed_swrite_empty : (Instr.swrite 0 []).wellFormed = false := by decide
theorem test_illformed_sread_empty : (Instr.sread 0 0).wellFormed = false := by decide
theorem test_illformed_fread_empty : (Instr.fread 0 0).wellFormed = false := by decide
theorem test_illformed_thresh_241 : (Instr.thresh 241).wellFormed = false := by decide
theorem test_illformed_laddr_255 : (Instr.laddr 255).wellFormed = false := by decide
theorem test_illformed_frameinit_width : (Instr.frameinit 20 2).wellFormed = false := by decide

/-! ### Decoding: `op[7:4]` the class (0 HCMD, 1 UOP, 2 FUNC), `op[3:0]` the operation (R85, R86), the operands of R87 -/

theorem test_decode_attach :
    decode ⟨0b00000001, { w := 128, h := 64, bpc := 8, pin := ⟨3, true⟩, xport := ⟨4, false⟩ }⟩ =
      .ok (.attach 128 64 8 ⟨3, true⟩ ⟨4, false⟩) := by rfl
theorem test_decode_detach : decode ⟨0b00000010, {}⟩ = .ok .detach := by rfl
theorem test_decode_swrite : decode ⟨0b00000011, { off := 24, bs := [0x00, 0xFF, 0x09] }⟩ = .ok (.swrite 24 [0x00, 0xFF, 0x09]) := by rfl
theorem test_decode_sread : decode ⟨0b00000100, { off := 7, n := 3 }⟩ = .ok (.sread 7 3) := by rfl
theorem test_decode_mstore : decode ⟨0b00000101, { off := 5, v := 0x10 }⟩ = .ok (.mstore 5 0x10) := by rfl
theorem test_decode_reqfl : decode ⟨0b00000110, {}⟩ = .ok .reqfl := by rfl
theorem test_decode_status : decode ⟨0b00000111, {}⟩ = .ok .status := by rfl
theorem test_decode_fread : decode ⟨0b00001000, { off := 2, n := 1 }⟩ = .ok (.fread 2 1) := by rfl
theorem test_decode_acq : decode ⟨0b00010000, {}⟩ = .ok .acq := by rfl
theorem test_decode_enc : decode ⟨0b00010001, {}⟩ = .ok .enc := by rfl
theorem test_decode_xfer : decode ⟨0b00010010, {}⟩ = .ok .xfer := by rfl
theorem test_decode_xdone_ok : decode ⟨0b00010011, { r := .ok }⟩ = .ok (.xdone .ok) := by rfl
theorem test_decode_xdone_err : decode ⟨0b00010011, { r := .err }⟩ = .ok (.xdone .err) := by rfl
theorem test_decode_llow : decode ⟨0b00010100, {}⟩ = .ok .llow := by rfl
theorem test_decode_lhigh : decode ⟨0b00010101, {}⟩ = .ok .lhigh := by rfl
theorem test_decode_rel : decode ⟨0b00010110, {}⟩ = .ok .rel := by rfl
theorem test_decode_dfin : decode ⟨0b00010111, {}⟩ = .ok .dfin := by rfl
theorem test_decode_luma : decode ⟨0b00100000, { red := 255, green := 1, blue := 17 }⟩ = .ok (.luma 255 1 17) := by rfl
theorem test_decode_thresh : decode ⟨0b00100001, { gray := 128 }⟩ = .ok (.thresh 128) := by rfl
theorem test_decode_pack8 :
    decode ⟨0b00100010, { b0 := true, b2 := true, b7 := true }⟩ =
      .ok (.pack8 true false true false false false false true) := by rfl
theorem test_decode_laddr : decode ⟨0b00100011, { y := 127 }⟩ = .ok (.laddr 127) := by rfl
theorem test_decode_frameinit : decode ⟨0b00100100, { w := 16, h := 2 }⟩ = .ok (.frameinit 16 2) := by rfl
/-- R88: the neighbours of the listed opcodes are reserved. -/
theorem test_decode_reserved :
    ([0x00, 0x09, 0x0F, 0x18, 0x1F, 0x25, 0x2F, 0x30, 0xFF] : List Byte).map (fun op => decode ⟨op, {}⟩) =
      ([0x00, 0x09, 0x0F, 0x18, 0x1F, 0x25, 0x2F, 0x30, 0xFF] : List Byte).map (fun op => .error (.reserved op)) := by rfl

/-! ### States built for one-step tests -/

/-- An attached, idle device: an 8×1 panel, nothing requested, the surface zero (R41). -/
def dev : State := State.reset.attachDone 8 1

/-- `dev` in a phase of a flush, the lock held (R27). -/
def devIn (p : Phase) : State := { dev with phase := p, lock := true }

/-- `dev` with a request outstanding. -/
def devDue : State := dev.request

/-- `dev` detaching, the context h0 blocked, no flush in flight. -/
def devDetaching : State := { dev with life := .detaching, detacher := some 0 }

/-- The device after its detach (R130). -/
def devGone : State :=
  { State.reset with life := .detached }

/-- What a next state shows, `none` where the machine stops. -/
def shows {α : Type} (f : State → α) : Result → Option α
  | .next t => some (f t)
  | .fault _ => none
  | .refused _ => none

/-- The result last returned to a host. -/
def lastReply (s : State) : Option Reply := s.replies.getLast?

theorem dev_inv : dev.Inv := State.attachDone_inv rfl (by decide)
theorem devDue_inv : devDue.Inv := dev_inv.request rfl

/-- Between the encode window and the transfer, and after it, the invariant asks what `dev` has. -/
theorem devIn_inv {p : Phase} (h1 : p ≠ .idle) (h3 : p ≠ .wait) (h4 : p ≠ .lhigh) :
    (devIn p).Inv :=
  { lock_phase := ⟨fun _ => h1, fun _ => rfl⟩
    absent := fun hn => absurd hn (by show ¬ (true = false); decide)
    geometry := dev_inv.geometry
    latch_level := fun _ => by
      show Latch.high = if p = .lhigh then .low else .high
      rw [if_neg h4]
    detaching_quiet := dev_inv.detaching_quiet
    detacher_life := dev_inv.detacher_life
    surf_ok := dev_inv.surf_ok
    snap_ok := dev_inv.snap_ok
    wr_ok := dev_inv.wr_ok
    window_closed := fun _ => ⟨rfl, rfl⟩
    frame_dense := dev_inv.frame_dense
    frame_framing := dev_inv.frame_framing
    in_flight := fun hw => absurd hw h3 }

/-! ### Datapath functions: 95_test_vectors.md 2.1–2.4 -/

theorem test_luma_red : shows (·.fnOut) (exec (.luma 255 0 0) .reset) = some (.gray 85) := by decide
theorem test_luma_truncates_each_term : shows (·.fnOut) (exec (.luma 2 1 8) .reset) = some (.gray 0) := by decide
theorem test_thresh_127 : shows (·.fnOut) (exec (.thresh 127) .reset) = some (.bit false) := by decide
theorem test_thresh_128 : shows (·.fnOut) (exec (.thresh 128) .reset) = some (.bit true) := by decide
theorem test_pack8_a1 :
    shows (·.fnOut) (exec (.pack8 true false true false false false false true) .reset) = some (.byte 0xA1) := by decide
theorem test_pack8_first_is_msb :
    shows (·.fnOut) (exec (.pack8 true false false false false false false false) .reset) = some (.byte 0x80) := by decide
theorem test_laddr_199 : shows (·.fnOut) (exec (.laddr 199) .reset) = some (.byte 0x13) := by decide
theorem test_laddr_254 : shows (·.fnOut) (exec (.laddr 254) .reset) = some (.byte 0xFF) := by decide
/-- R105's example, 16×2. -/
theorem test_frameinit_16x2 :
    exec (.frameinit 16 2) .reset = .next { State.reset with
      fnOut := .bytes
        [Config.cfgByte, 0x80, 0x00, 0x00, Config.trailerByte, 0x40, 0x00, 0x00, Config.trailerByte, Config.termByte] } := by
  rfl

/-! ### Host commands: 95_test_vectors.md 2.7, 2.8 -/

theorem test_attach_events :
    shows (fun t => (t.life, t.latch, t.trace))
      (exec (.attach 8 255 8 ⟨0, true⟩ ⟨0, true⟩) { State.reset with recorded := { alloc := some true } }) =
      some (.attached, .high, [.pin .high, .attached 8 255]) := by decide
/-- Configuration before allocation (R188). -/
theorem test_attach_bad_pin_first :
    shows (fun t => (t.life, t.lastErr, t.trace))
      (exec (.attach 8 1 8 ⟨0, false⟩ ⟨0, true⟩) { State.reset with recorded := { alloc := some false } }) =
      some (.uninit, .configurationError, [.attachFailed .configurationError]) := by decide
theorem test_detach_idle :
    shows (fun t => (t.life, t.pending, t.detacher)) (exec .detach { devDue with issuer := 3 }) =
      some (.detaching, false, some 3) := by decide
theorem test_detach_twice : shows (fun t => (t.life, t.lastErr)) (exec .detach devDetaching) =
    some (.detaching, .illegalState) := by decide
/-- The red pixel of R154's example. -/
theorem test_swrite_red :
    shows (fun t => (memReadList t.surf 0 4, t.pending, t.wr)) (exec (.swrite 0 [255, 0, 0]) dev) =
      some ([255, 0, 0, 0], true, []) := by decide
/-- R154 in DETACHING during the encode window: written, raced, not requested. -/
theorem test_swrite_detaching_in_window :
    shows (fun t => (memRead t.surf 23, t.pending, t.wr))
      (exec (.swrite 22 [0, 7]) { devDetaching with phase := .enc, lock := true }) =
      some (7, false, [(22, 0), (23, 7)]) := by decide
theorem test_sread_last_bytes :
    shows lastReply (exec (.sread 22 2) { dev with surf := [(22, 9), (23, 7)] }) =
      some (some { ctx := 0, code := .noError, data := .bytes [9, 7] }) := by decide
theorem test_sread_past_the_end : shows (·.refused) (exec (.sread 23 2) dev) = some true := by decide
theorem test_mstore_hook_0 :
    shows (fun t => (memRead t.surf 5, t.pending)) (exec (.mstore 5 0x10) { dev with recorded := { hook := some false } }) =
      some (0x10, false) := by decide
theorem test_mstore_hook_1 :
    shows (fun t => (memRead t.surf 5, t.pending)) (exec (.mstore 5 0x10) { dev with recorded := { hook := some true } }) =
      some (0x10, true) := by decide
theorem test_reqfl_uninit : shows (fun t => (t.lastErr, t.pending)) (exec .reqfl .reset) =
    some (.illegalState, false) := by decide
theorem test_reqfl_detached : shows lastReply (exec .reqfl devGone) =
    some (some { ctx := 0, code := .noError }) := by decide
theorem test_status_after_reset : shows lastReply (exec .status .reset) =
    some (some { ctx := 0, code := .noError, data := .words [0x00000400, 0, 0, 0] }) := by decide
/-- 2.8's row "FLUSHING, P_LHIGH (latch LOW)", at 8×1. -/
theorem test_status_lhigh : shows lastReply (exec .status { devIn .lhigh with latch := .low }) =
    some (some { ctx := 0, code := .noError, data := .words [0x00000852, 0, 8, 1] }) := by decide
/-- `F[1] = 0x80` (R151). -/
theorem test_fread_line_address : shows lastReply (exec (.fread 1 1) dev) =
    some (some { ctx := 0, code := .noError, data := .bytes [0x80] }) := by decide
theorem test_fread_past_the_end : shows (·.refused) (exec (.fread 4 2) dev) = some true := by decide

/-! ### Sequencer steps: 95_test_vectors.md 2.5, 2.6 -/

theorem test_acq :
    shows (fun t => (t.phase, t.pending, t.lock, t.snap)) (exec .acq { devDue with surf := [(0, 9)] }) =
      some (.enc, false, true, [(0, 9)]) := by decide
theorem test_acq_not_enabled : exec .acq dev = .next dev := by rfl
/-- 2.5: the candidates of the race chosen so that pixel 0 is (0, 255, 255), gray 155. -/
theorem test_enc_race_on :
    shows (fun t => frameRead? t.frame 2)
      (exec .enc { devIn .enc with
        wr := [(0, 0xFF), (1, 0xFF), (2, 0xFF)]
        recorded := { race := [(0, 0), (1, 1), (2, 1)] } }) = some (some 0x80) := by decide
/-- 2.5: pixel 0 is (255, 0, 255), gray 113. -/
theorem test_enc_race_off :
    shows (fun t => frameRead? t.frame 2)
      (exec .enc { devIn .enc with
        wr := [(0, 0xFF), (1, 0xFF), (2, 0xFF)]
        recorded := { race := [(0, 1), (1, 0), (2, 1)] } }) = some (some 0x00) := by decide
theorem test_xfer_whole_frame :
    exec .xfer (devIn .xfer) = .next { devIn .xfer with
      phase := .wait
      trace := [.pin .high, .attached 8 1, .xfer [Config.cfgByte, 0x80, 0x00, Config.trailerByte, Config.termByte]] } := by
  rfl
theorem test_xdone_ok : shows (fun t => (t.phase, t.trace)) (exec (.xdone .ok) (devIn .wait)) =
    some (.llow, [.pin .high, .attached 8 1, .xferResult .ok]) := by decide
/-- err_count saturates (2.6). -/
theorem test_xdone_err_saturates :
    shows (fun t => (t.phase, t.lastErr, t.errCount)) (exec (.xdone .err) { devIn .wait with errCount := 0xFFFFFFFF }) =
      some (.rel, .transportFailure, 0xFFFFFFFF) := by decide
theorem test_llow : shows (fun t => (t.phase, t.latch)) (exec .llow (devIn .llow)) = some (.lhigh, .low) := by decide
theorem test_lhigh :
    shows (fun t => (t.phase, t.latch, t.trace.getLast?)) (exec .lhigh { devIn .lhigh with latch := .low }) =
      some (.rel, .high, some (.pin .high)) := by decide
theorem test_rel : shows (fun t => (t.phase, t.lock)) (exec .rel (devIn .rel)) = some (.idle, false) := by decide
theorem test_dfin :
    shows (fun t => (t.life, t.latch, t.detacher, t.trace.getLast?)) (exec .dfin devDetaching) =
      some (.detached, .undriven, none, some .detached) := by decide
/-- The blocked context gets its result 0 (R153). -/
theorem test_dfin_returns_the_detach : shows lastReply (exec .dfin devDetaching) =
    some (some { ctx := 0, code := .noError }) := by decide

/-! ### The interleaving -/

/-- The words of the opcode table decode (R86), a reserved one does not. -/
theorem test_table_words :
    decodeTableWord 8 0x07 = some .status ∧ decodeTableWord 8 0x17 = some .dfin ∧
    decodeTableWord 8 0x21 = some (.thresh 0) ∧ decodeTableWord 8 0x18 = none := by decide
/-- A host's UOP opcode is IllegalCommand (R88). -/
theorem test_host_issues_a_uop :
    shows (fun t => (t.lastErr, t.phase)) (step { devDue with listing := [hostLine 1 .acq] }) =
      some (.illegalCommand, .idle) := by decide
/-- The sequencer moves while h0 waits in DETACH (R153). -/
theorem test_sequencer_moves_for_a_blocked_host :
    shows (fun t => (t.life, t.listing)) (step { devDetaching with listing := [hostLine 0 .status] }) =
      some (.detached, [hostLine 0 .status]) := by decide
/-- An agent that may not issue the opcode: the machine stops by name (log 21). -/
theorem test_wrong_agent :
    step { State.reset with listing := [{ agent := .seq, word := encode .status }] } = .fault .wrongAgent := by rfl
/-- R136: a failed transfer commits nothing, an accepted one after its pulse does. -/
theorem test_committed_frame :
    committed [.xfer [1], .xferResult .err, .log .transportFailure] = none ∧
    committed [.xfer [1], .xferResult .ok, .pin .low] = none ∧
    committed [.xfer [1], .xferResult .ok, .pin .low, .pin .high, .xfer [2], .xferResult .err] = some [1] := by decide
/-- R92: PIX 8, 0 at width 16 is an SWRITE at 24. -/
theorem test_pix : (pixLine 1 16 8 0 0x00 0xFF 0x09).word = encode (.swrite 24 [0x00, 0xFF, 0x09]) := by decide

/-! ### Witnesses: a state and operands that meet all hypotheses of a statement, clause by clause -/

/-- A listing whose next line is an MSTORE of h1. -/
def devListing : State := { dev with listing := [hostLine 1 (.mstore 5 0x10)] }

/-- A device whose host was told IllegalState before any ATTACH. -/
def neverAttached : State := { State.reset with lastErr := .illegalState }

theorem neverAttached_inv : neverAttached.Inv :=
  { lock_phase := by decide
    absent := fun _ => by decide
    geometry := fun h => absurd h (by decide)
    latch_level := fun h => absurd h (by decide)
    detaching_quiet := fun _ => rfl
    detacher_life := by decide
    surf_ok := by decide
    snap_ok := by decide
    wr_ok := by decide
    window_closed := fun _ => ⟨rfl, rfl⟩
    frame_dense := fun h => absurd h (by decide)
    frame_framing := fun h => absurd h (by decide)
    in_flight := fun h => absurd h (by decide) }
theorem witness_NothingRunsAfterResetUntilAttach : ∃ (s : State) (i : Instr), s.Inv ∧ s.life = .uninit ∧ i.cls = .uop :=
  ⟨neverAttached, .acq, neverAttached_inv, rfl, rfl⟩
theorem witness_NothingRunsAfterResetUntilAttach_command : ∃ (s t : State) (i : Instr), s.Inv ∧ s.life = .uninit ∧
    (∀ w h bpc pin xport, i ≠ .attach w h bpc pin xport) ∧ exec i s = .next t ∧ t.lastErr = .illegalState :=
  ⟨neverAttached, _, .reqfl, neverAttached_inv, rfl, fun _ _ _ _ _ => by simp, rfl, by decide⟩
theorem witness_EveryStepKeepsTheBlockInvariant : ∃ s t : State, s.Inv ∧ step s = .next t ∧ t.phase ≠ s.phase :=
  ⟨devDue, _, devDue_inv, rfl, by decide⟩
theorem witness_AStepRunsTheDecodedInstruction : ∃ (s : State) (l : Line) (rest : List Line) (i : Instr),
    s.listing = l :: rest ∧ s.waits l.agent = false ∧ decode l.word = .ok i ∧ l.agent.mayIssue i.cls = true :=
  ⟨devListing, _, _, _, rfl, by decide, rfl, by decide⟩
theorem witness_APlacedTableWordIsRunNext : decodeTableWord 8 0x11 = some .enc := by rfl
theorem witness_TheSequencerMovesByItself_empty :
    devDue.listing = [] ∧ devDue.ownStep = some .acq ∧ dev.listing = [] ∧ dev.ownStep = none := by decide
theorem witness_TheSequencerMovesByItself_waiting : ∃ s : State, ∃ l rest,
    s.listing = l :: rest ∧ s.waits l.agent = true ∧ s.ownStep = some .dfin :=
  ⟨{ devDetaching with listing := [hostLine 0 .status] }, _, _, rfl, by decide, by decide⟩
theorem witness_AnIllegalOpcodeReturnsIllegalCommand : ∃ (s : State) (word : CmdWord),
    s.listing = { agent := .host 1, word := word, draws := {} } :: [] ∧ s.detacher ≠ some 1 ∧
    ¬ (0x01 ≤ word.op.toNat ∧ word.op.toNat ≤ 0x08) ∧ word.op.toNat = 9 :=
  ⟨{ devDetaching with listing := [{ agent := .host 1, word := ⟨9, {}⟩ }] }, ⟨9, {}⟩, rfl, by decide, by decide, by decide⟩
theorem witness_DecodeAndEncodeAgree :
    listedOpcode 0x00 = false ∧ listedOpcode 0x25 = false ∧
    decode ⟨0x05, { off := 5, v := 0x10, n := 3 }⟩ = .ok (.mstore 5 0x10) := ⟨by decide, by decide, rfl⟩
theorem witness_LumaIsBoundedAndMonotone :
    (2 : Byte).toNat ≤ (3 : Byte).toNat ∧ (254 : Byte).toNat ≤ (254 : Byte).toNat ∧ luma 2 254 0 < luma 3 254 0 := by decide
theorem witness_ThreshIsOnFrom128 : (240 : Byte).toNat ≤ 240 ∧ (0 : Byte).toNat ≤ 240 := by decide
theorem witness_LaddrReversesTheLineNumber : (254 : Nat) ≤ 254 ∧ (7 : Nat) < 8 ∧ laddr 254 = laddr 254 := by decide
theorem witness_EveryFrameAddressHasOnePlace :
    0 < frameLen 8 1 ∧ 4 < frameLen 8 1 ∧ dataPos 8 1 2 = some (0, 0) ∧ dataPos 8 1 4 = none ∧ 3 = lineBase 8 0 + 2 ∧
    (0 : Nat) < 1 ∧ (2 : Nat) ≤ 8 / 8 + 1 := by decide
theorem witness_APixelsBitIsAtItsPlace : (16 : Nat) % 8 = 0 ∧ (15 : Nat) < 16 ∧ (1 : Nat) < 2 ∧ lineBase 16 1 + 1 + 15 / 8 = 7 := by decide
theorem witness_ADataByteDependsOnItsOwnPixels : ∃ img img' : Nat → Byte,
    (∀ a, 3 * (8 * 0 + 8 * 0) ≤ a → a < 3 * (8 * 0 + 8 * 0) + 24 → img a = img' a) ∧ img 24 ≠ img' 24 :=
  ⟨fun _ => 0, fun a => if a < 24 then 0 else 1, fun a _ h => by simp [show a < 24 by omega], by decide⟩
theorem witness_AtMostOneSequencerStepIsEnabled : ∃ (s : State) (i j : Instr),
    i.cls = .uop ∧ j.cls = .uop ∧ s.enabled i = true ∧ s.enabled j = true ∧ i ≠ j :=
  ⟨devIn .wait, .xdone .ok, .xdone .err, rfl, rfl, by decide, by decide, by decide⟩
theorem witness_AnUnenabledStepIsNotTaken : Instr.acq.cls = .uop ∧ dev.enabled .acq = false := by decide
theorem witness_AcqStartsAFlush : devDue.life = .attached ∧ devDue.phase = .idle ∧ devDue.pending = true := by decide
theorem witness_EncRewritesTheDataBytes :
    (devIn .enc).phase = .enc ∧ 0 < (devIn .enc).height.toNat ∧ 0 < (devIn .enc).width.toNat / 8 ∧
    (frameRead? (devIn .enc).frame (lineBase (devIn .enc).width.toNat 0 + 1 + 0)).isSome = true := by decide
theorem witness_EncRewritesTheDataBytes_framing : ∀ y k, y < (devIn .enc).height.toNat →
    k < (devIn .enc).width.toNat / 8 → 4 ≠ lineBase (devIn .enc).width.toNat y + 1 + k := by
  show ∀ y k, y < 1 → k < 1 → 4 ≠ lineBase 8 y + 1 + k
  intro y k hy hk; simp only [lineBase, dataBytes]; omega
theorem witness_EveryRaceOutcomeIsAdmitted : ∃ (s : State) (img : Nat → Byte), s.phase = .enc ∧
    (∀ a, a < s.surfSize → img a = memRead s.snap a ∨ img a ∈ raceAt s.wr a) ∧ img 0 ≠ memRead s.snap 0 :=
  ⟨{ devIn .enc with wr := [(0, 7)] }, fun a => if a = 0 then 7 else 0, rfl,
    fun a _ => by
      by_cases h : a = 0
      · subst h; exact .inr (by decide)
      · left; simp only [if_neg h]; rfl,
    by decide⟩
theorem witness_AWriteBeforeAcquisitionIsEncoded : ∃ (s t : State) (is : List Instr),
    s.acqEnabled = true ∧ (∀ i ∈ is, i.cls = .hcmd) ∧ runInstrs (.acq :: is) s = some t ∧
    (∀ i ∈ is, writesAddress i 3 = false) ∧ memRead s.surf 3 = 9 :=
  ⟨{ devDue with surf := [(3, 9)], recorded := { hook := some true } }, _, [.swrite 0 [1, 2, 3], .mstore 4 1, .detach], by decide, by decide, rfl, by decide,
    by decide⟩
/-- The commands between ACQ and ENC may leave all the pixels of a data byte alone: line 1 of a panel of two. -/
theorem witness_AWriteBeforeAcquisitionIsEncoded_byte :
    let s : State := (State.reset.attachDone 8 2).request
    let is : List Instr := [.swrite 0 [1, 2, 3], .sread 0 48]
    s.acqEnabled = true ∧ (1 < s.height.toNat ∧ 0 < s.width.toNat / 8) ∧
    (frameRead? s.frame (lineBase s.width.toNat 1 + 1 + 0)).isSome = true ∧
    ∀ a, 3 * (s.width.toNat * 1 + 8 * 0) ≤ a → a < 3 * (s.width.toNat * 1 + 8 * 0) + 24 →
      ∀ i ∈ is, writesAddress i a = false := by
  refine ⟨by decide, by decide, by decide, fun a h1 _ i hi => ?_⟩
  have h1 : 24 ≤ a := h1
  simp only [List.mem_cons, List.not_mem_nil, or_false] at hi
  rcases hi with rfl | rfl
  · simp [writesAddress]; omega
  · rfl
theorem witness_XferSendsTheWholeFrame : ∃ s : State, s.phase = .xfer ∧ s.Inv :=
  ⟨devIn .xfer, rfl, devIn_inv (by decide) (by decide) (by decide)⟩
theorem witness_XdoneOkGoesToTheLatch : (devIn .wait).phase = .wait := rfl
theorem witness_XdoneErrRecordsAFailureAndSkipsTheLatch :
    { devIn .wait with errCount := 0xFFFFFFFF }.phase = .wait := rfl
theorem witness_TheLatchPulseIsLowThenHigh : (devIn .llow).phase = .llow ∧ (devIn .lhigh).phase = .lhigh := by decide
theorem witness_RelReleasesTheLock :
    (devIn .rel).phase = .rel ∧ { devIn .rel with pending := true }.life = .attached ∧
    { devDetaching with phase := .rel, lock := true }.phase = .rel ∧ { devDetaching with phase := .rel }.life = .detaching := by
  decide
theorem witness_DfinCompletesTheDetach :
    devDetaching.life = .detaching ∧ devDetaching.phase = .idle ∧ devDetaching.detacher = some 0 := by decide
theorem witness_DfinCompletesTheDetach_nobody_blocked :
    { devDetaching with detacher := none }.life = .detaching ∧ { devDetaching with detacher := none }.detacher = none := by
  decide
theorem witness_ThePhaseFollowsTheTransitionTable : ∃ (i : Instr) (s t : State),
    s.Inv ∧ exec i s = .next t ∧ t.phase ≠ s.phase := ⟨.acq, devDue, _, devDue_inv, rfl, by decide⟩
theorem witness_ThePhaseFollowsTheTransitionTable_rows : ∀ p : Phase, ∃ s : State, s.phase = p := fun p => ⟨devIn p, rfl⟩
theorem witness_OnlyAcqAndRelTouchTheLock : ∃ (i : Instr) (s t : State),
    s.Inv ∧ exec i s = .next t ∧ i ≠ .acq ∧ i ≠ .rel ∧ s.lock = true :=
  ⟨.xfer, devIn .xfer, _, devIn_inv (by decide) (by decide) (by decide), rfl, by decide, by decide, rfl⟩
theorem witness_ASuccessfulAttachInitialisesTheDevice : ∃ (w h : Word) (pin xport : Handle) (s : State),
    s.life = .uninit ∧ w.toNat % 8 = 0 ∧ 8 ≤ w.toNat ∧ 1 ≤ h.toNat ∧ h.toNat ≤ 255 ∧
    pin.valid = true ∧ xport.valid = true ∧ s.allocDraw = true :=
  ⟨8, 255, ⟨0, true⟩, ⟨1, true⟩, { State.reset with recorded := { alloc := some true } }, by decide⟩
theorem witness_AttachRefusesOtherGeometries :
    State.reset.life = .uninit ∧ (5 : Byte) ≠ 8 ∧ (0 : Word).toNat = 0 ∧ (12 : Word).toNat % 8 ≠ 0 ∧
    255 < (256 : Word).toNat := by decide
theorem witness_AFailedAttach_configuration : ∃ (w h : Word) (pin xport : Handle) (s : State),
    s.life = .uninit ∧ geometryOk w.toNat h.toNat = true ∧ (pin.valid = false ∨ xport.valid = false) :=
  ⟨8, 255, ⟨0, true⟩, ⟨0, false⟩, .reset, by decide⟩
theorem witness_AFailedAttach_allocation : ∃ (w h : Word) (pin xport : Handle) (s : State),
    s.life = .uninit ∧ geometryOk w.toNat h.toNat = true ∧ pin.valid = true ∧ xport.valid = true ∧ s.allocDraw = false :=
  ⟨8, 1, ⟨0, true⟩, ⟨0, true⟩, { State.reset with recorded := { alloc := some false } }, by decide⟩
theorem witness_DetachDropsTheRequestAndBlocks : devDue.life = .attached ∧ devDue.pending = true := by decide
theorem witness_SwriteWritesItsBytesAndRequests : ∃ (off : Word) (bs : List Byte) (s : State),
    (s.life = .attached ∨ s.life = .detaching) ∧ memWf s.surf = true ∧ bs ≠ [] ∧
    off.toNat + bs.length ≤ s.width.toNat * s.height.toNat * 3 ∧ s.phase ≠ .enc := ⟨23, [7], dev, by decide⟩
theorem witness_SwriteWritesItsBytesAndRequests_racing : ∃ (off : Word) (bs : List Byte) (s : State),
    (s.life = .attached ∨ s.life = .detaching) ∧ memWf s.surf = true ∧ bs ≠ [] ∧
    off.toNat + bs.length ≤ s.width.toNat * s.height.toNat * 3 ∧ s.phase = .enc :=
  ⟨22, [0, 7], { devDetaching with phase := .enc, lock := true }, by decide⟩
theorem witness_MstoreStoresOneByteAndMayRequest : ∃ (off : Word) (s : State),
    (s.life = .attached ∨ s.life = .detaching) ∧ memWf s.surf = true ∧
    off.toNat < s.width.toNat * s.height.toNat * 3 ∧ s.phase ≠ .enc := ⟨23, dev, by decide⟩
theorem witness_MstoreStoresOneByteAndMayRequest_racing : ∃ (off : Word) (s : State),
    (s.life = .attached ∨ s.life = .detaching) ∧ memWf s.surf = true ∧
    off.toNat < s.width.toNat * s.height.toNat * 3 ∧ s.phase = .enc := ⟨23, devIn .enc, by decide⟩
theorem witness_SreadReturnsTheSurfaceBytes : ∃ (off n : Word) (s : State),
    (s.life = .attached ∨ s.life = .detaching) ∧ n ≠ 0 ∧
    off.toNat + n.toNat ≤ s.width.toNat * s.height.toNat * 3 := ⟨22, 2, devDetaching, by decide⟩
theorem witness_FreadReturnsTheFrameBytes : ∃ (off n : Word) (s : State),
    (s.life = .attached ∨ s.life = .detaching) ∧ n ≠ 0 ∧
    off.toNat + n.toNat ≤ 1 + s.height.toNat * (s.width.toNat / 8 + 2) + 1 ∧ s.Inv :=
  ⟨4, 1, dev, by decide, by decide, by decide, dev_inv⟩
theorem witness_ReqflRequestsOrDoesNothing :
    dev.life = .attached ∧ devDetaching.life = .detaching ∧ devGone.life = .detached ∧ State.reset.life = .uninit := by
  decide
theorem witness_ACommandInTheWrongStateIsIllegalState :
    devGone.life ≠ .uninit ∧ devGone.life ≠ .attached ∧ devGone.life = .detached ∧ State.reset.life = .uninit := by decide
theorem witness_AnAccessOutOfRangeIsRefused :
    (dev.life = .attached ∨ dev.life = .detaching) ∧ ([] : List Byte) = [] ∧
    dev.width.toNat * dev.height.toNat * 3 < (24 : Word).toNat + [(1 : Byte)].length ∧
    dev.width.toNat * dev.height.toNat * 3 < (23 : Word).toNat + (2 : Word).toNat ∧
    dev.width.toNat * dev.height.toNat * 3 ≤ (24 : Word).toNat ∧
    1 + dev.height.toNat * (dev.width.toNat / 8 + 2) + 1 < (5 : Word).toNat + (1 : Word).toNat := by decide
theorem witness_OnlyTheNamedStepsChangeTheDevice : ∃ (s t : State), exec .dfin s = .next t ∧
    (t.width ≠ s.width ∨ t.height ≠ s.height) ∧ t.life ≠ s.life ∧ t.frame ≠ s.frame ∧ t.latch ≠ s.latch ∧ t.surf ≠ s.surf :=
  ⟨{ devDetaching with surf := [(0, 1)] }, _, rfl, by decide, by decide, fun h => by
    have := congrArg List.length h; exact absurd this (by decide), by decide, by decide⟩
theorem witness_OnlyTheNamedStepsChangeTheDevice_errCount : ∃ (s t : State),
    exec (.xdone .err) s = .next t ∧ t.errCount ≠ s.errCount := ⟨devIn .wait, _, rfl, by decide⟩
theorem witness_OnlyRequestsSetPending_set : ∃ (s t : State), exec .reqfl s = .next t ∧ s.pending = false ∧ t.pending = true :=
  ⟨dev, _, rfl, by decide, by decide⟩
theorem witness_OnlyRequestsSetPending_clear : ∃ (s t : State), exec .acq s = .next t ∧ s.pending = true ∧ t.pending = false :=
  ⟨devDue, _, rfl, by decide, by decide⟩
theorem witness_TheTraceGrowsAndTheMarkStays : ∃ s t : State, step s = .next t ∧ s.refused = true ∧ s.trace ≠ t.trace :=
  ⟨{ devDetaching with refused := true }, _, rfl, rfl, by decide⟩
theorem witness_TheFramingBytesNeverChange : ∃ s : State, s.Inv ∧ (s.life = .attached ∨ s.life = .detaching) ∧
    0 < s.height.toNat := ⟨dev, dev_inv, .inl rfl, by decide⟩
theorem witness_TheFramingBytesNeverChange_step : ∃ (s t : State), (s.life = .attached ∨ s.life = .detaching) ∧
    exec .enc s = .next t ∧ (t.life = .attached ∨ t.life = .detaching) ∧
    dataPos s.width.toNat s.height.toNat 4 = none ∧ t.phase ≠ s.phase :=
  ⟨devIn .enc, _, .inl rfl, rfl, .inl rfl, by decide, by decide⟩
theorem witness_AFlushCommitsTheSurfaceAtAcquisition : ∃ s : State, s.Inv ∧ s.acqEnabled = true ∧ 0 < s.height.toNat :=
  ⟨devDue, devDue_inv, by decide, by decide⟩
theorem witness_AFailedFlushCommitsNothingAndReleasesTheLock : devDue.acqEnabled = true := by decide
theorem witness_NoMoreFlushesThanRequests : ∃ (s t : State) (i : Instr), exec i s = .next t ∧ s.makesRequest i = true ∧
    s.pending = false := ⟨dev, _, .swrite 23 [7], rfl, by decide, by decide⟩
/-- Two requests before an ACQ and one after it are two bursts (program P4). -/
theorem test_bursts : burstCount false [.reqfl, .reqfl, .acq, .reqfl] dev = 2 ∧
    requestsMade [.reqfl, .reqfl, .acq, .reqfl] dev = 3 := by decide
/-- A refused write is no request. -/
theorem test_refused_write_is_no_request : dev.makesRequest (.swrite 23 [7, 7]) = false := by decide
theorem witness_RequestsCoalesce : dev.life = .attached := rfl
theorem witness_NoFlushStartsAfterDetach : ∃ (s t : State) (is : List Instr),
    (s.life = .detaching ∨ s.life = .detached) ∧ runInstrs is s = some t ∧ is ≠ [] :=
  ⟨devDetaching, _, [.reqfl, .acq, .dfin, .acq], .inl rfl, rfl, by decide⟩
theorem witness_DetachReturnsOnlyWhenTheFlushIsOver : ∃ (s t : State), exec .dfin s = .next t ∧
    countEvent .detached t.trace ≠ countEvent .detached s.trace := ⟨devDetaching, _, rfl, by decide⟩
theorem witness_OneLogPerTransportFailure : ∃ (s t : State), exec (.xdone .err) s = .next t ∧
    countEvent (.log .transportFailure) t.trace ≠ countEvent (.log .transportFailure) s.trace :=
  ⟨devIn .wait, _, rfl, by decide⟩
theorem witness_ADueFlushRunsToItsEnd : devDue.listing = [] ∧ devDue.acqEnabled = true := by decide
theorem witness_BookkeepingSteersNoHardware : ∃ (s s' t t' : State), s ≠ s' ∧ s.hardware = s'.hardware ∧
    exec .dfin s = .next t ∧ exec .dfin s' = .next t' :=
  ⟨devDetaching, { devDetaching with detacher := none, issuer := 1, refused := true }, _, _,
    fun h => by have := congrArg State.issuer h; exact absurd this (by decide), rfl, rfl, rfl⟩
theorem witness_InstancesShareNothing : ∃ (fleet' : List State) (t : State),
    fleetStep [devGone, devDue] 1 = .next fleet' ∧ (0 : Nat) ≠ 1 ∧ [devGone, devDue][1]? = some devDue ∧
    step devDue = .next t := ⟨_, _, rfl, by decide, rfl, rfl⟩

end Sys2Proof.Tests
end

section
/-! SUPPORT. What one instruction can do to the block, said once: it leaves the device alone (`SameDevice`) or has its
rule's one effect (`Effect`). Every statement about all instructions is derived from `exec_cases`. -/

namespace Sys2Proof.Machine

/-! ### Steps that leave the device alone -/

/-- `t` differs from `s` at most in replies, `last_err`, draws and the model's own fields; its trace may be longer, but
by no transfer. -/
structure SameDevice (s t : State) : Prop where
  life : t.life = s.life
  phase : t.phase = s.phase
  pending : t.pending = s.pending
  lock : t.lock = s.lock
  surf : t.surf = s.surf
  frame : t.frame = s.frame
  width : t.width = s.width
  height : t.height = s.height
  latch : t.latch = s.latch
  errCount : t.errCount = s.errCount
  snap : t.snap = s.snap
  wr : t.wr = s.wr
  detacher : t.detacher = s.detacher
  lastXfer : lastXfer t.trace = lastXfer s.trace
  trace : s.trace <+: t.trace
  refused : s.refused = true → t.refused = true

theorem SameDevice.refl (s : State) : SameDevice s s := by constructor <;> simp

theorem SameDevice.trans {s t u : State} (h : SameDevice s t) (k : SameDevice t u) : SameDevice s u where
  life := k.life.trans h.life
  phase := k.phase.trans h.phase
  pending := k.pending.trans h.pending
  lock := k.lock.trans h.lock
  surf := k.surf.trans h.surf
  frame := k.frame.trans h.frame
  width := k.width.trans h.width
  height := k.height.trans h.height
  latch := k.latch.trans h.latch
  errCount := k.errCount.trans h.errCount
  snap := k.snap.trans h.snap
  wr := k.wr.trans h.wr
  detacher := k.detacher.trans h.detacher
  lastXfer := k.lastXfer.trans h.lastXfer
  trace := h.trace.trans k.trace
  refused := k.refused ∘ h.refused

theorem SameDevice.reply (s : State) (c : ErrorCode) (d : ReplyData) : SameDevice s (s.reply c d) := by
  constructor <;> simp

theorem SameDevice.refuse (s : State) (why : RefuseReason) : SameDevice s (s.refuse why) := by
  constructor <;> simp

theorem SameDevice.drew (s : State) : SameDevice s s.drew := by constructor <;> simp

theorem SameDevice.unrecorded (s : State) : SameDevice s s.unrecorded := by constructor <;> simp

theorem SameDevice.take (s : State) (l : Line) (rest : List Line) : SameDevice s (s.take l rest) := by
  constructor <;> simp

theorem SameDevice.fnOut (s : State) (v : FnOut) : SameDevice s { s with fnOut := v } := by constructor <;> simp

/-- Every error but a TransportFailure is only recorded and returned (R189). -/
theorem SameDevice.hostError (s : State) {c : ErrorCode} (hc : c ≠ .transportFailure) :
    SameDevice s (s.hostError c) := by
  constructor <;> simp [State.hostError, State.raiseError_errCount, State.raiseError_trace, hc]

/-- A failed ATTACH leaves its event and its error (R181, R182). -/
theorem SameDevice.attachFailed (s : State) {c : ErrorCode} (hc : c ≠ .transportFailure) :
    SameDevice s (s.attachFailed c) := by
  constructor <;>
    simp [State.attachFailed, State.hostError, State.raiseError_errCount, State.raiseError_trace, hc,
      lastXfer_append_one]

/-! ### The effect of each instruction that has one -/

/-- The one way in which an instruction changes the device: for each instruction that can, when and to what. -/
inductive Effect (s : State) : Instr → State → Prop
  | attach {w h : Word} {bpc : Byte} {pin xport : Handle} (uninit : s.life = .uninit)
      (admitted : geometryOk w.toNat h.toNat = true) :
      Effect s (.attach w h bpc pin xport) (s.drew.attachDone w h)
  | detach (attached : s.life = .attached) :
      Effect s .detach { s with life := .detaching, pending := false, detacher := some s.issuer }
  | swrite {off : Word} {bs : List Byte} (present : s.present = true)
      (inRange : off.toNat + bs.length ≤ s.surfSize) :
      Effect s (.swrite off bs) ((s.writeSurface off.toNat bs).hook.reply .noError .nothing)
  | mstoreHooked {off : Word} {v : Byte} (present : s.present = true) (inRange : off.toNat + 1 ≤ s.surfSize) :
      Effect s (.mstore off v) ((s.writeSurface off.toNat [v]).drew.hook.reply .noError .nothing)
  | mstoreUnhooked {off : Word} {v : Byte} (present : s.present = true) (inRange : off.toNat + 1 ≤ s.surfSize) :
      Effect s (.mstore off v) ((s.writeSurface off.toNat [v]).drew.reply .noError .nothing)
  | reqfl (attached : s.life = .attached) : Effect s .reqfl (s.request.reply .noError .nothing)
  | acq (enabled : s.acqEnabled = true) :
      Effect s .acq ({ (s.clearPending.setLock true) with snap := s.surf, wr := [] }.goto .enc)
  | enc (phase : s.phase = .enc) :
      Effect s .enc (({ s with
        frame := encodeFrame s.encImage s.width.toNat s.height.toNat s.frame
        snap := []
        wr := [] }.drew).goto .xfer)
  | xfer (phase : s.phase = .xfer) :
      Effect s .xfer ((s.emit (.xfer (frameReadList s.frame 0 s.frameLen))).goto .wait)
  | xdoneOk (phase : s.phase = .wait) : Effect s (.xdone .ok) ((s.emit (.xferResult .ok)).goto .llow)
  | xdoneErr (phase : s.phase = .wait) :
      Effect s (.xdone .err) (((s.emit (.xferResult .err)).raiseError .transportFailure).goto .rel)
  | llow (phase : s.phase = .llow) : Effect s .llow (({ s with latch := .low }.emit (.pin .low)).goto .lhigh)
  | lhigh (phase : s.phase = .lhigh) : Effect s .lhigh (({ s with latch := .high }.emit (.pin .high)).goto .rel)
  | rel (phase : s.phase = .rel) : Effect s .rel ((s.setLock false).goto .idle)
  | dfin (enabled : s.dfinEnabled = true) :
      Effect s .dfin (({ s with
        surf := []
        frame := []
        pending := false
        latch := .undriven
        width := 0
        height := 0
        life := .detached }.emit .detached).releaseDetacher)

/-- A sequencer step that is not enabled leaves the state; an enabled one has its effect. -/
theorem whenEnabled_cases {i : Instr} {b : Bool} {s t u : State} (e : whenEnabled b s u = .next t)
    (effect : b = true → Effect s i u) : SameDevice s t ∨ Effect s i t := by
  obtain ⟨hb, rfl⟩ | ⟨-, rfl⟩ := (whenEnabled_next b s u t).mp e
  · exact .inr (effect hb)
  · exact .inl (.refl _)

/-- What an instruction answers: the device is left alone, or the instruction's effect. -/
theorem exec_cases {i : Instr} {s t : State} (e : exec i s = .next t) : SameDevice s t ∨ Effect s i t := by
  have illegal : SameDevice s (s.hostError .illegalState) := .hostError s (by decide)
  cases i with
  | attach w h bpc pin xport =>
    obtain ⟨-, rfl⟩ | ⟨-, why, rfl⟩ | ⟨-, rfl⟩ | ⟨hl, hg, rfl⟩ | ⟨-, rfl⟩ := execAttach_cases e
    · exact .inl illegal
    · exact .inl (.refuse s why)
    · exact .inl (.attachFailed s (by decide))
    · exact .inr (.attach hl hg)
    · exact .inl ((SameDevice.drew s).trans (.attachFailed _ (by decide)))
  | detach =>
    obtain ⟨-, rfl⟩ | ⟨hl, rfl⟩ := execDetach_cases e
    · exact .inl illegal
    · exact .inr (.detach hl)
  | swrite off bs =>
    obtain ⟨-, rfl⟩ | ⟨-, rfl⟩ | ⟨hp, -, hr, rfl⟩ := execSwrite_cases e
    · exact .inl illegal
    · exact .inl (.refuse s _)
    · exact .inr (.swrite hp hr)
  | sread off n =>
    obtain ⟨-, rfl⟩ | ⟨-, rfl⟩ | ⟨-, rfl⟩ := execSread_cases e
    · exact .inl illegal
    · exact .inl (.refuse s _)
    · exact .inl (.reply s _ _)
  | mstore off v =>
    obtain ⟨-, rfl⟩ | ⟨-, rfl⟩ | ⟨hp, hr, rfl | rfl⟩ := execMstore_cases e
    · exact .inl illegal
    · exact .inl (.refuse s _)
    · exact .inr (.mstoreHooked hp hr)
    · exact .inr (.mstoreUnhooked hp hr)
  | reqfl =>
    obtain ⟨hl, rfl⟩ | ⟨-, rfl⟩ | ⟨-, rfl⟩ := execReqfl_cases e
    · exact .inr (.reqfl hl)
    · exact .inl (.reply s _ _)
    · exact .inl illegal
  | status => cases e; exact .inl (.reply s _ _)
  | fread off n =>
    obtain ⟨-, rfl⟩ | ⟨-, rfl⟩ | ⟨-, rfl⟩ := execFread_cases e
    · exact .inl illegal
    · exact .inl (.refuse s _)
    · exact .inl (.reply s _ _)
  | acq => exact whenEnabled_cases e .acq
  | enc => exact whenEnabled_cases e fun h => .enc (of_decide_eq_true h)
  | xfer => exact whenEnabled_cases e fun h => .xfer (of_decide_eq_true h)
  | xdone r =>
    cases r with
    | ok => exact whenEnabled_cases e fun h => .xdoneOk (of_decide_eq_true h)
    | err => exact whenEnabled_cases e fun h => .xdoneErr (of_decide_eq_true h)
  | llow => exact whenEnabled_cases e fun h => .llow (of_decide_eq_true h)
  | lhigh => exact whenEnabled_cases e fun h => .lhigh (of_decide_eq_true h)
  | rel => exact whenEnabled_cases e fun h => .rel (of_decide_eq_true h)
  | dfin => exact whenEnabled_cases e .dfin
  | luma r g b => cases e; exact .inl (.fnOut s _)
  | thresh gray => cases e; exact .inl (.fnOut s _)
  | pack8 b0 b1 b2 b3 b4 b5 b6 b7 => cases e; exact .inl (.fnOut s _)
  | laddr y => cases e; exact .inl (.fnOut s _)
  | frameinit w h => cases e; exact .inl (.fnOut s _)

/-- A step leaves the device alone, or runs an instruction from a state with the same device. -/
theorem step_cases {s t : State} (h : step s = .next t) :
    SameDevice s t ∨ ∃ i u, SameDevice s u ∧ exec i u = .next t := by
  obtain ⟨i, hf⟩ | ⟨l, rest, i, hf⟩ | hf | ⟨l, rest, hf⟩ | ⟨f, hf⟩ := fetch_cases s <;>
    simp only [step, hf] at h
  · exact .inr ⟨i, _, .unrecorded s, h⟩
  · exact .inr ⟨i, _, .take s l rest, h⟩
  · cases h; exact .inl (.refl s)
  · cases h; exact .inl ((SameDevice.take s l rest).trans (.hostError _ (by decide)))
  · cases h

end Sys2Proof.Machine
end

section
/-! SUPPORT. The block invariant: every effect keeps it, so every instruction and every step does. -/

namespace Sys2Proof.Machine

/-- The invariant speaks of the device alone. -/
theorem State.Inv.of_sameDevice {s t : State} (h : s.Inv) (d : SameDevice s t) : t.Inv :=
  h.of_same_fields d.life d.phase d.pending d.lock d.surf d.frame d.width d.height d.latch d.snap d.wr d.detacher
    fun _ => d.lastXfer

/-- Before ATTACH no flush is in flight (R40). -/
theorem State.Inv.idle_of_uninit {s : State} (h : s.Inv) (hl : s.life = .uninit) : s.phase = .idle :=
  (h.absent (by simp [State.present, hl])).1

/-- Outside DETACHING nobody is blocked (R150, R153). -/
theorem State.Inv.detacher_eq_none {s : State} (h : s.Inv) (hl : s.life ≠ .detaching) : s.detacher = none := by
  have := h.detacher_life
  simpa [hl] using this

/-! ### Host commands -/

/-- DETACH drops the request and blocks its context (R153). -/
theorem State.Inv.detach {s : State} (h : s.Inv) (hl : s.life = .attached) :
    ({ s with life := .detaching, pending := false, detacher := some s.issuer } : State).Inv :=
  have hp : s.present = true := s.present_iff.mpr (.inl hl)
  { h with
    absent := by simp [State.present]
    geometry := fun _ => h.geometry hp
    latch_level := fun _ => h.latch_level hp
    detaching_quiet := fun _ => rfl
    detacher_life := by simp
    frame_dense := fun _ => h.frame_dense hp
    frame_framing := fun _ => h.frame_framing hp }

/-- A write inside SURF keeps the surface and the race sets canonical and inside SURF (R154, R156). -/
theorem State.Inv.writeSurface {s : State} (h : s.Inv) (hp : s.present = true) {a : Nat} {bs : List Byte}
    (hr : a + bs.length ≤ s.surfSize) : (s.writeSurface a bs).Inv :=
  { h with
    absent := fun hn => absurd (hp.symm.trans hn) (by decide)
    surf_ok := ⟨memWf_memWriteList bs _ a h.surf_ok.1, memBelow_memWriteList bs _ a _ h.surf_ok.2 hr⟩
    wr_ok := by
      rw [State.writeSurface_wr]
      split
      · exact ⟨raceWf_raceInsertList bs _ a h.wr_ok.1, memBelow_raceInsertList bs _ a _ h.wr_ok.2 hr⟩
      · exact h.wr_ok
    window_closed := fun hne => by
      rw [State.writeSurface_phase] at hne
      simpa [hne] using h.window_closed hne }

/-- The write hook keeps the invariant (R154). -/
theorem State.Inv.hook {s : State} (h : s.Inv) : s.hook.Inv := by
  unfold State.hook
  split
  · exact h.request ‹_›
  · exact h

/-- The detach is over: nothing is left of the device (R130). -/
theorem State.Inv.dfin {s : State} (h : s.Inv) (he : s.dfinEnabled = true) :
    ((({ s with
        surf := []
        frame := []
        pending := false
        latch := .undriven
        width := 0
        height := 0
        life := .detached } : State).emit .detached).releaseDetacher).Inv := by
  obtain ⟨-, hi⟩ : s.life = .detaching ∧ s.phase = .idle := by simpa [State.dfinEnabled] using he
  obtain ⟨hsnap, hwr⟩ := h.window_closed (by simp [hi])
  constructor
  · simpa using h.lock_phase
  all_goals simp [State.present, hi, hsnap, hwr, memWf, memWfFrom, memBelow, raceWf]

/-! ### The steps of a flush -/

/-- What the steps of a flush leave of the device: all but the phase, the lock, the latch, the encode window, the
request, which ACQ consumes, and the data bytes of the frame, which ENC writes. -/
structure FlushKeeps (s t : State) : Prop where
  life : t.life = s.life
  surf : t.surf = s.surf
  width : t.width = s.width
  height : t.height = s.height
  detacher : t.detacher = s.detacher
  pending : s.pending = false → t.pending = false
  addresses : t.frame.map (fun c => c.1) = s.frame.map fun c => c.1
  framing : ∀ i, dataPos s.width.toNat s.height.toNat i = none → frameRead? t.frame i = frameRead? s.frame i

/-- A flush step keeps the invariant where it sets the lock, the latch, the encode window and the transfer as the
invariant says of the phase it goes to. -/
theorem State.Inv.flushStep {s t : State} (h : s.Inv) (hp : s.present = true) (k : FlushKeeps s t)
    (lock : t.lock = true ↔ t.phase ≠ .idle)
    (latch : t.latch = if t.phase = .lhigh then .low else .high)
    (snap : memWf t.snap = true ∧ memBelow s.surfSize t.snap = true)
    (wr : raceWf t.wr = true ∧ memBelow s.surfSize t.wr = true)
    (window : t.phase ≠ .enc → t.snap = [] ∧ t.wr = [])
    (flight : t.phase = .wait → t.inFlight = some (frameReadList t.frame 0 t.frameLen)) : t.Inv := by
  have hpt : t.present = true := by rw [State.present, k.life]; exact hp
  have hsize : t.surfSize = s.surfSize := by simp only [State.surfSize, k.width, k.height]
  exact
    { lock_phase := lock
      absent := fun hn => absurd (hpt.symm.trans hn) (by decide)
      geometry := fun _ => by rw [k.width, k.height]; exact h.geometry hp
      latch_level := fun _ => latch
      detaching_quiet := fun hd => k.pending (h.detaching_quiet (k.life ▸ hd))
      detacher_life := by rw [k.detacher, k.life]; exact h.detacher_life
      surf_ok := by rw [k.surf, hsize]; exact h.surf_ok
      snap_ok := hsize ▸ snap
      wr_ok := hsize ▸ wr
      window_closed := window
      frame_dense := fun _ => by rw [frameDense, k.addresses, k.width, k.height]; exact h.frame_dense hp
      frame_framing := fun _ => by
        rw [k.width, k.height]
        intro i hi hn
        rw [k.framing i hn]; exact h.frame_framing hp i hi hn
      in_flight := flight }

/-- A flush step that goes on to a phase outside P_ENC and P_WAIT, with the encode window closed. -/
theorem State.Inv.flushStep_closed {s t : State} (h : s.Inv) (hp : s.present = true) (k : FlushKeeps s t)
    (lock : t.lock = true ↔ t.phase ≠ .idle)
    (latch : t.latch = if t.phase = .lhigh then .low else .high)
    (snap : t.snap = []) (wr : t.wr = [])
    (flight : t.phase = .wait → t.inFlight = some (frameReadList t.frame 0 t.frameLen)) : t.Inv :=
  h.flushStep hp k lock latch (by simp [snap, memWf, memWfFrom, memBelow]) (by simp [wr, raceWf, memBelow])
    (fun _ => ⟨snap, wr⟩) flight

/-- ENC writes data bytes only (R123). -/
theorem frameRead?_encodeFrame_framing (img : Nat → Byte) {w h i : Nat} (f : List Host.Cell)
    (hi : dataPos w h i = none) : frameRead? (encodeFrame img w h f) i = frameRead? f i := by
  rw [frameRead?_encodeFrame]
  cases frameRead? f i with
  | none => rfl
  | some v => rw [Option.map_some, encodedByte_none v hi]

/-- A flush step that leaves the frame, and the request, as they are. -/
theorem FlushKeeps.of_same {s t : State} (life : t.life = s.life) (surf : t.surf = s.surf) (width : t.width = s.width)
    (height : t.height = s.height) (detacher : t.detacher = s.detacher) (pending : t.pending = s.pending)
    (frame : t.frame = s.frame) : FlushKeeps s t :=
  ⟨life, surf, width, height, detacher, pending.trans, by rw [frame], fun _ _ => by rw [frame]⟩

/-- ACQ opens the encode window on a copy of the surface (R121). -/
theorem State.Inv.acq {s : State} (h : s.Inv) (he : s.acqEnabled = true) :
    ({ (s.clearPending.setLock true) with snap := s.surf, wr := [] }.goto .enc : State).Inv := by
  obtain ⟨⟨hl, hi⟩, -⟩ : (s.life = .attached ∧ s.phase = .idle) ∧ s.pending = true := by
    simpa [State.acqEnabled] using he
  have hp : s.present = true := s.present_iff.mpr (.inl hl)
  have high : s.latch = .high := by simpa [hi] using h.latch_level hp
  exact h.flushStep hp ⟨rfl, rfl, rfl, rfl, rfl, fun _ => rfl, rfl, fun _ _ => rfl⟩
    (by simp) (by simpa using high) h.surf_ok (by simp [raceWf, memBelow]) (by simp) (by simp)

/-- ENC keeps the frame's addresses and framing bytes and closes the encode window (R123). -/
theorem State.Inv.enc {s : State} (h : s.Inv) (hq : s.phase = .enc) :
    (({ s with
        frame := encodeFrame s.encImage s.width.toNat s.height.toNat s.frame
        snap := []
        wr := [] } : State).drew.goto .xfer).Inv := by
  have hp : s.present = true := h.present_of_phase (by simp [hq])
  exact h.flushStep_closed hp
    ⟨rfl, rfl, rfl, rfl, rfl, id, encodeFrame_addresses _ _ _ _, fun _ => frameRead?_encodeFrame_framing _ _⟩
    (by simp [h.lock_phase, hq]) (by simp [h.latch_level hp, hq]) rfl rfl (by simp)

/-- XFER puts the frame's bytes in flight (R124). -/
theorem State.Inv.xfer {s : State} (h : s.Inv) (hq : s.phase = .xfer) :
    ((s.emit (.xfer (frameReadList s.frame 0 s.frameLen))).goto .wait).Inv := by
  have hp : s.present = true := h.present_of_phase (by simp [hq])
  obtain ⟨hsnap, hwr⟩ := h.window_closed (by simp [hq])
  refine h.flushStep_closed hp (.of_same rfl rfl rfl rfl rfl rfl rfl)
    (by simp [h.lock_phase, hq]) (by simp [h.latch_level hp, hq]) hsnap hwr fun _ => ?_
  simp only [State.inFlight, State.goto_phase, State.goto_trace, State.emit_trace, lastXfer_append_one]
  rfl

/-- A flush step after XFER moves on with the frame, the request and the empty encode window as they are. -/
theorem State.Inv.flushStep_after {s t : State} (h : s.Inv) (hi : s.phase ≠ .idle) (he : s.phase ≠ .enc)
    (k : FlushKeeps s t) (snap : t.snap = s.snap) (wr : t.wr = s.wr) (wait : t.phase ≠ .wait)
    (lock : t.lock = true ↔ t.phase ≠ .idle) (latch : t.latch = if t.phase = .lhigh then .low else .high) : t.Inv :=
  have ⟨hsnap, hwr⟩ := h.window_closed he
  h.flushStep_closed (h.present_of_phase hi) k lock latch (snap.trans hsnap) (wr.trans hwr) fun hw => absurd hw wait

/-- The latch is high while a transfer runs and after the latch pulse (R29). -/
theorem State.Inv.latch_eq_high {s : State} (h : s.Inv) (hi : s.phase ≠ .idle) (hl : s.phase ≠ .lhigh) :
    s.latch = .high := (h.latch_level (h.present_of_phase hi)).trans (if_neg hl)

/-- Every effect keeps the invariant. -/
theorem State.Inv.effect {i : Instr} {s t : State} (h : s.Inv) (e : Effect s i t) : t.Inv := by
  cases e with
  | attach hl hg =>
    have hd : s.detacher = none := h.detacher_eq_none (by simp [hl])
    exact State.attachDone_inv (s := s.drew) hd hg
  | detach hl => exact h.detach hl
  | swrite hp hr => exact (h.writeSurface hp hr).hook.of_sameDevice (.reply _ _ _)
  | mstoreHooked hp hr =>
    exact ((h.writeSurface hp hr).of_sameDevice (.drew _)).hook.of_sameDevice (.reply _ _ _)
  | mstoreUnhooked hp hr =>
    exact ((h.writeSurface hp hr).of_sameDevice (.drew _)).of_sameDevice (.reply _ _ _)
  | reqfl hl => exact (h.request hl).of_sameDevice (.reply _ _ _)
  | acq he => exact h.acq he
  | enc hq => exact h.enc hq
  | xfer hq => exact h.xfer hq
  | xdoneOk hq =>
    have high : s.latch = .high := h.latch_eq_high (by simp [hq]) (by simp [hq])
    exact h.flushStep_after (by simp [hq]) (by simp [hq]) (.of_same rfl rfl rfl rfl rfl rfl rfl) rfl rfl
      (by simp) (by simp [h.lock_phase, hq]) (by simp [high])
  | xdoneErr hq =>
    have high : s.latch = .high := h.latch_eq_high (by simp [hq]) (by simp [hq])
    exact h.flushStep_after (by simp [hq]) (by simp [hq]) (.of_same rfl rfl rfl rfl rfl rfl rfl) rfl rfl
      (by simp) (by simp [h.lock_phase, hq]) (by simp [high])
  | llow hq =>
    exact h.flushStep_after (by simp [hq]) (by simp [hq]) (.of_same rfl rfl rfl rfl rfl rfl rfl) rfl rfl
      (by simp) (by simp [h.lock_phase, hq]) (by simp)
  | lhigh hq =>
    exact h.flushStep_after (by simp [hq]) (by simp [hq]) (.of_same rfl rfl rfl rfl rfl rfl rfl) rfl rfl
      (by simp) (by simp [h.lock_phase, hq]) (by simp)
  | rel hq =>
    have high : s.latch = .high := h.latch_eq_high (by simp [hq]) (by simp [hq])
    exact h.flushStep_after (by simp [hq]) (by simp [hq]) (.of_same rfl rfl rfl rfl rfl rfl rfl) rfl rfl
      (by simp) (by simp) (by simp [high])
  | dfin he => exact h.dfin he

/-- Every instruction keeps the invariant. -/
theorem State.Inv.exec {i : Instr} {s t : State} (h : s.Inv) (e : exec i s = .next t) : t.Inv := by
  obtain d | e := exec_cases e
  · exact h.of_sameDevice d
  · exact h.effect e

/-- Settles O4: a step leaves the device alone, or runs an instruction, whose effect keeps the invariant. -/
theorem everyStepKeepsTheBlockInvariant : Obligations.EveryStepKeepsTheBlockInvariant := by
  unfold Obligations.EveryStepKeepsTheBlockInvariant
  intro s t h hs
  obtain d | ⟨i, u, d, e⟩ := step_cases hs
  · exact h.of_sameDevice d
  · exact (h.of_sameDevice d).exec e

/-- Settles O3: with nothing allocated, requested or in flight, every clause is of empty memories (log 19). -/
theorem resetMeetsTheBlockInvariant : Obligations.ResetMeetsTheBlockInvariant := by
  unfold Obligations.ResetMeetsTheBlockInvariant
  constructor <;> simp [State.reset, State.present, memWf, memWfFrom, memBelow, raceWf]

/-- Settles O1: the reset state is written out with the values of R40's table. -/
theorem resetLeavesTheStatedValues : Obligations.ResetLeavesTheStatedValues := by
  unfold Obligations.ResetLeavesTheStatedValues
  decide

end Sys2Proof.Machine
end

section
/-! SUPPORT. Who may change which field of the device: each clause is read off the instruction's effect. -/

namespace Sys2Proof.Machine

/-- An instruction that is enabled runs to its next state. -/
theorem whenEnabled_of_enabled {b : Bool} (h : b = true) (s t : State) : whenEnabled b s t = .next t := if_pos h

/-- Settles O33: ACQ and REL by their meanings, the others by their effects; a successful ATTACH finds the lock clear
because no flush is in flight in UNINIT. -/
theorem onlyAcqAndRelTouchTheLock : Obligations.OnlyAcqAndRelTouchTheLock := by
  unfold Obligations.OnlyAcqAndRelTouchTheLock
  refine ⟨fun s he => ⟨_, whenEnabled_of_enabled he _ _, rfl⟩,
    fun s hq => ⟨_, whenEnabled_of_enabled (decide_eq_true hq) _ _, rfl⟩, ?_, fun s h => h.lock_phase⟩
  intro i s t h e hacq hrel
  obtain d | f := exec_cases e
  · exact d.lock
  · cases f with
    | attach hl hg =>
      have clear : s.lock = false := by simp [← Bool.not_eq_true, h.lock_phase, h.idle_of_uninit hl]
      rw [State.attachDone_lock, clear]
    | acq he => exact absurd rfl hacq
    | rel hq => exact absurd rfl hrel
    | _ => simp

/-- Settles O47: each effect changes the fields its rule names. -/
theorem onlyTheNamedStepsChangeTheDevice : Obligations.OnlyTheNamedStepsChangeTheDevice := by
  unfold Obligations.OnlyTheNamedStepsChangeTheDevice
  intro i s t e
  obtain d | f := exec_cases e
  · simp [d.width, d.height, d.life, d.frame, d.latch, d.surf, d.errCount]
  · cases f <;> simp [State.raiseError_errCount]

/-- The write hook requests only while attached (R154). -/
theorem State.attached_of_hook_pending {s : State} (h : s.pending = false) (h' : s.hook.pending = true) :
    s.life = .attached := by simpa [h] using h'

/-- Settles O48: among the effects, a request sets the flag, which the write hook makes only while attached. -/
theorem onlyRequestsSetPending : Obligations.OnlyRequestsSetPending := by
  unfold Obligations.OnlyRequestsSetPending
  intro i s t e
  obtain d | f := exec_cases e
  · rw [d.pending]
    exact ⟨fun h h' => absurd (h.symm.trans h') (by decide), fun h h' => absurd (h.symm.trans h') (by decide)⟩
  · cases f with
    | swrite =>
      exact ⟨fun h h' => ⟨rfl, State.attached_of_hook_pending (s := s.writeSurface _ _) h h'⟩,
        fun h h' => by simp [h] at h'⟩
    | mstoreHooked =>
      exact ⟨fun h h' => ⟨rfl, State.attached_of_hook_pending (s := (s.writeSurface _ _).drew) h h'⟩,
        fun h h' => by simp [h] at h'⟩
    | reqfl hl => simp [requests, hl]
    | _ => simp_all

/-- Every effect only appends to the trace and leaves the mark. -/
theorem Effect.trace_refused {i : Instr} {s t : State} (f : Effect s i t) :
    s.trace <+: t.trace ∧ t.refused = s.refused := by
  cases f <;> simp [State.raiseError_trace, State.attachDone_trace]

/-- Along an instruction the trace only grows and the mark stays (R37, R38). -/
theorem exec_trace_refused {i : Instr} {s t : State} (e : exec i s = .next t) :
    s.trace <+: t.trace ∧ (s.refused = true → t.refused = true) := by
  obtain d | f := exec_cases e
  · exact ⟨d.trace, d.refused⟩
  · obtain ⟨htrace, hmark⟩ := f.trace_refused
    exact ⟨htrace, hmark.trans⟩

/-- Settles O49: a step's bookkeeping keeps trace and mark, and so does the instruction it runs. -/
theorem theTraceGrowsAndTheMarkStays : Obligations.TheTraceGrowsAndTheMarkStays := by
  unfold Obligations.TheTraceGrowsAndTheMarkStays
  intro s t hs
  obtain d | ⟨i, u, d, e⟩ := step_cases hs
  · exact ⟨d.trace, d.refused⟩
  · obtain ⟨htrace, hmark⟩ := exec_trace_refused e
    exact ⟨d.trace.trans htrace, hmark ∘ d.refused⟩

end Sys2Proof.Machine
end

section
/-! SUPPORT. Noninterference: the bookkeeping fields steer no hardware. Every operation commutes with
`State.hardware`, so an instruction answers the same hardware from a state as from its hardware part. -/

namespace Sys2Proof.Machine

/-- The hardware's part of a next state. -/
def hardwareResult : Result → Result
  | .next t => .next t.hardware
  | .fault f => .fault f
  | .refused r => .refused r

/-! ### Operations on the hardware's part -/

@[simp] theorem State.hardware_life (s : State) : s.hardware.life = s.life := rfl

theorem State.hardware_hook (s : State) : s.hardware.hook.hardware = s.hook.hardware := by
  unfold State.hook
  rw [State.hardware_life]
  split <;> rfl

/-- Whom DFIN releases is no matter of the hardware (R201). -/
theorem State.hardware_releaseDetacher (s : State) : s.releaseDetacher.hardware = s.hardware := by
  unfold State.releaseDetacher; split <;> rfl

/-- A condition the hardware's part keeps decides alike on both sides. -/
theorem hardwareResult_ite {c : Prop} [Decidable c] {x x' y y' : Result}
    (hx : hardwareResult x = hardwareResult x') (hy : hardwareResult y = hardwareResult y') :
    hardwareResult (if c then x else y) = hardwareResult (if c then x' else y') := by
  split <;> assumption

/-- From the hardware's part of a state an instruction answers the same hardware as from the state. -/
theorem hardwareResult_exec_hardware (i : Instr) (s : State) :
    hardwareResult (exec i s.hardware) = hardwareResult (exec i s) := by
  cases i with
  | attach w h bpc pin xport =>
    refine hardwareResult_ite rfl ?_
    cases geometryRefusal w h bpc with
    | some why => rfl
    | none => exact hardwareResult_ite rfl (hardwareResult_ite rfl rfl)
  | detach => exact hardwareResult_ite rfl rfl
  | swrite off bs =>
    exact hardwareResult_ite rfl (hardwareResult_ite rfl
      (congrArg Host.Outcome.next (s.writeSurface off.toNat bs).hardware_hook))
  | sread off n => exact hardwareResult_ite rfl (hardwareResult_ite rfl rfl)
  | mstore off v =>
    refine hardwareResult_ite rfl (hardwareResult_ite rfl (congrArg Host.Outcome.next ?_))
    change State.hardware (if s.hookDraw then (s.hardware.writeSurface off.toNat [v]).drew.hook
        else (s.hardware.writeSurface off.toNat [v]).drew) =
      State.hardware (if s.hookDraw then (s.writeSurface off.toNat [v]).drew.hook
        else (s.writeSurface off.toNat [v]).drew)
    split
    · exact (s.writeSurface off.toNat [v]).drew.hardware_hook
    · rfl
  | reqfl =>
    simp only [exec, execReqfl, State.hardware_life]
    cases s.life <;> rfl
  | fread off n => exact hardwareResult_ite rfl (hardwareResult_ite rfl rfl)
  | acq => exact hardwareResult_ite rfl rfl
  | enc => exact hardwareResult_ite rfl rfl
  | xfer => exact hardwareResult_ite rfl rfl
  | xdone r => cases r <;> exact hardwareResult_ite rfl rfl
  | llow => exact hardwareResult_ite rfl rfl
  | lhigh => exact hardwareResult_ite rfl rfl
  | rel => exact hardwareResult_ite rfl rfl
  | dfin =>
    refine hardwareResult_ite (congrArg Host.Outcome.next ?_) rfl
    rw [State.hardware_releaseDetacher, State.hardware_releaseDetacher]
    rfl
  | _ => rfl

/-- Settles O59: both runs answer the hardware that the common hardware part answers. -/
theorem bookkeepingSteersNoHardware : Obligations.BookkeepingSteersNoHardware := by
  unfold Obligations.BookkeepingSteersNoHardware
  intro i s s' t t' hs e e'
  have same : hardwareResult (exec i s) = hardwareResult (exec i s') := by
    rw [← hardwareResult_exec_hardware, hs, hardwareResult_exec_hardware]
  rw [e, e'] at same
  exact Host.Outcome.next.inj same

end Sys2Proof.Machine
end

section
/-! SUPPORT. STATUS: each field of status word 0 stands alone at its bits (R36). -/

namespace Sys2Proof.Machine

/-! ### The width of each field -/

theorem stateBits_lt (s : State) : (stateBits s).toNat < 8 := by
  unfold stateBits
  cases s.life with
  | attached => dsimp only; split <;> decide
  | _ => dsimp only; decide

theorem phaseBits_lt (p : Phase) : (phaseBits p).toNat < 8 := by cases p <;> decide

theorem latchBits_lt (l : Latch) : (latchBits l).toNat < 4 := by cases l <;> decide

theorem flagBit_toNat (b : Bool) : (flagBit b).toNat = b.toNat := by cases b <;> rfl

/-! ### The word as a sum of its fields -/

/-- A field put above the bits in use is added to them. -/
theorem toNat_or_shiftLeft {a b : Word} (k : Nat) (ha : a.toNat < 2 ^ k) (hb : b.toNat * 2 ^ k < 2 ^ 32) :
    (a ||| b <<< k).toNat = a.toNat + b.toNat * 2 ^ k := by
  rw [BitVec.toNat_or, BitVec.toNat_shiftLeft, Nat.shiftLeft_eq, Nat.mod_eq_of_lt hb, ← Nat.shiftLeft_eq,
    Nat.or_comm, ← Nat.shiftLeft_add_eq_or_of_lt ha, Nat.add_comm, Nat.shiftLeft_eq]

/-- Fields of 3, 3, 1, 2, 1 and 3 bits at the places R36 gives them do not overlap. -/
theorem toNat_fields {st ph pe la lo er : Word} (hst : st.toNat < 8) (hph : ph.toNat < 8) (hpe : pe.toNat < 2)
    (hla : la.toNat < 4) (hlo : lo.toNat < 2) (her : er.toNat < 8) :
    (st ||| ph <<< 4 ||| pe <<< 8 ||| la <<< 9 ||| lo <<< 11 ||| er <<< 12).toNat =
      st.toNat + ph.toNat * 2 ^ 4 + pe.toNat * 2 ^ 8 + la.toNat * 2 ^ 9 + lo.toNat * 2 ^ 11 +
        er.toNat * 2 ^ 12 := by
  have h4 := toNat_or_shiftLeft (a := st) (b := ph) 4 (by omega) (by omega)
  have h8 := toNat_or_shiftLeft (b := pe) 8 (by rw [h4]; omega) (by omega)
  have h9 := toNat_or_shiftLeft (b := la) 9 (by rw [h8, h4]; omega) (by omega)
  have h11 := toNat_or_shiftLeft (b := lo) 11 (by rw [h9, h8, h4]; omega) (by omega)
  rw [toNat_or_shiftLeft 12 (by rw [h11, h9, h8, h4]; omega) (by omega), h11, h9, h8, h4]

/-- Status word 0 is the sum of its fields, each at its place. -/
theorem statusWord0_toNat (s : State) :
    (statusWord0 s).toNat = (stateBits s).toNat + (phaseBits s.phase).toNat * 2 ^ 4 + s.pending.toNat * 2 ^ 8 +
      (latchBits s.latch).toNat * 2 ^ 9 + s.lock.toNat * 2 ^ 11 + (errorBits s.lastErr).toNat * 2 ^ 12 := by
  have herr : ((errorBits s.lastErr).setWidth 32).toNat = (errorBits s.lastErr).toNat :=
    BitVec.toNat_setWidth_of_le (by decide)
  have flag : ∀ b, (flagBit b).toNat < 2 := fun b => by rw [flagBit_toNat]; exact b.toNat_lt
  rw [statusWord0, toNat_fields (stateBits_lt s) (phaseBits_lt _) (flag _) (latchBits_lt _) (flag _)
    (by rw [herr]; exact (errorBits s.lastErr).isLt), flagBit_toNat, flagBit_toNat, herr]

/-! ### Reading a field -/

/-- The bits `hi` to `lo` of a word by division. -/
theorem toNat_extractLsb_eq_div_mod (w : Word) (hi lo : Nat) :
    (w.extractLsb hi lo).toNat = w.toNat / 2 ^ lo % 2 ^ (hi - lo + 1) := by
  rw [BitVec.extractLsb_toNat, Nat.shiftRight_eq_div_pow]

/-- One bit of a word by division. -/
theorem getLsbD_eq_decide_div_mod (w : Word) (i : Nat) : w.getLsbD i = decide (w.toNat / 2 ^ i % 2 = 1) := by
  rw [← Nat.testBit_eq_decide_div_mod_eq]; rfl

/-- A flag is the bit of its number. -/
theorem decide_toNat_eq_one {b : Bool} {n : Nat} (h : n = b.toNat) : decide (n = 1) = b := by
  subst h; cases b <;> rfl

/-- Every field of status word 0, and every reserved bit (R36). -/
theorem statusWord0_fields (s : State) :
    ((statusWord0 s).extractLsb 2 0).toNat = (stateBits s).toNat ∧ (statusWord0 s).getLsbD 3 = false ∧
    ((statusWord0 s).extractLsb 6 4).toNat = (phaseBits s.phase).toNat ∧ (statusWord0 s).getLsbD 7 = false ∧
    (statusWord0 s).getLsbD 8 = s.pending ∧
    ((statusWord0 s).extractLsb 10 9).toNat = (latchBits s.latch).toNat ∧
    (statusWord0 s).getLsbD 11 = s.lock ∧
    ((statusWord0 s).extractLsb 14 12).toNat = (errorBits s.lastErr).toNat ∧
    ((statusWord0 s).extractLsb 31 15).toNat = 0 := by
  have hst := stateBits_lt s
  have hph := phaseBits_lt s.phase
  have hpe := s.pending.toNat_lt
  have hla := latchBits_lt s.latch
  have hlo := s.lock.toNat_lt
  have her := (errorBits s.lastErr).isLt
  simp only [toNat_extractLsb_eq_div_mod, getLsbD_eq_decide_div_mod, statusWord0_toNat, decide_eq_false_iff_not]
  exact ⟨by omega, by omega, by omega, by omega, decide_toNat_eq_one (by omega), by omega,
    decide_toNat_eq_one (by omega), by omega, by omega⟩

/-- Settles O43: the fields by `statusWord0_fields`, their codes by R36's tables. -/
theorem statusReturnsTheStatusRecord : Obligations.StatusReturnsTheStatusRecord := by
  unfold Obligations.StatusReturnsTheStatusRecord
  intro s
  obtain ⟨hstate, h3, hphase, h7, h8, hlatch, h11, herr, hrest⟩ := statusWord0_fields s
  refine ⟨statusWord0 s, s.errCount, if s.present then s.width else 0, if s.present then s.height else 0, rfl,
    ?_, h3, ?_, h7, h8, ?_, h11, ?_, BitVec.eq_of_toNat_eq hrest, rfl, ?_, ?_⟩
  · refine BitVec.eq_of_toNat_eq (hstate.trans ?_)
    unfold stateBits
    cases s.life with
    | attached => dsimp only; split <;> rfl
    | _ => rfl
  · exact BitVec.eq_of_toNat_eq (hphase.trans (by cases s.phase <;> rfl))
  · exact BitVec.eq_of_toNat_eq (hlatch.trans (by cases s.latch <;> rfl))
  · exact BitVec.eq_of_toNat_eq (herr.trans (by cases s.lastErr <;> rfl))
  · simp only [State.present_iff]
  · simp only [State.present_iff]

end Sys2Proof.Machine
end

section
/-! SUPPORT. ATTACH and the frame it builds, as the byte sequence of R84. -/

namespace Sys2Proof.Machine

/-- Counting to `h * m` is counting `h` rows of `m`. -/
theorem map_range_mul {α : Type} (g : Nat → α) (h m : Nat) :
    (List.range (h * m)).map g =
      ((List.range h).map fun y => (List.range m).map fun r => g (y * m + r)).flatten := by
  induction h with
  | zero => simp
  | succ h ih =>
    rw [Nat.succ_mul, List.range_add, List.map_append, ih, List.range_succ, List.map_append, List.flatten_append]
    simp [Function.comp_def]

/-- What FRAMEINIT writes at byte `r` of line `y`: the line address, the data bytes and the trailer (R54, R105). -/
theorem frameInitByte_lineBase {w h y r : Nat} (hy : y < h) (hr : r < dataBytes w + 2) :
    frameInitByte w h (1 + (y * (dataBytes w + 2) + r)) =
      if r = 0 then laddr y else if r = dataBytes w + 1 then Config.trailerByte else 0x00 := by
  have hrow : (y + 1) * (dataBytes w + 2) ≤ h * (dataBytes w + 2) := Nat.mul_le_mul_right _ hy
  rw [Nat.succ_mul] at hrow
  have hlast : 1 + (y * (dataBytes w + 2) + r) + 1 ≠ frameLen w h := by rw [frameLen_eq]; omega
  have hdiv : (y * (dataBytes w + 2) + r) / (dataBytes w + 2) = y := by
    rw [Nat.mul_comm, Nat.mul_add_div (by omega), Nat.div_eq_of_lt hr, Nat.add_zero]
  have hmod : (y * (dataBytes w + 2) + r) % (dataBytes w + 2) = r := by
    rw [Nat.mul_comm, Nat.mul_add_mod, Nat.mod_eq_of_lt hr]
  simp only [frameInitByte, Nat.add_sub_cancel_left, hdiv, hmod, if_neg hlast]
  rw [if_neg (by omega)]

/-- The bytes of one line (R84). -/
theorem map_frameInitByte_line {w h y : Nat} (hy : y < h) :
    ((List.range (dataBytes w + 2)).map fun r => frameInitByte w h (1 + (y * (dataBytes w + 2) + r))) =
      [laddr y] ++ List.replicate (dataBytes w) 0x00 ++ [Config.trailerByte] := by
  have hline : ∀ r ∈ List.range (dataBytes w + 2), frameInitByte w h (1 + (y * (dataBytes w + 2) + r)) =
      if r = 0 then laddr y else if r = dataBytes w + 1 then Config.trailerByte else 0x00 :=
    fun r hr => frameInitByte_lineBase hy (List.mem_range.mp hr)
  have hdata : (List.range (dataBytes w)).map (fun r =>
      if r + 1 = 0 then laddr y else if r + 1 = dataBytes w + 1 then Config.trailerByte else 0x00) =
        List.replicate (dataBytes w) 0x00 := by
    refine List.eq_replicate_iff.mpr ⟨by simp, fun v hv => ?_⟩
    obtain ⟨r, hr, rfl⟩ := List.mem_map.mp hv
    have hr := List.mem_range.mp hr
    rw [if_neg (by omega), if_neg (by omega)]
  rw [List.map_congr_left hline, List.range_succ, List.range_succ_eq_map, ← hdata]
  simp [Function.comp_def]

/-- The last byte FRAMEINIT writes is the terminator. -/
theorem frameInitByte_last (w h : Nat) : frameInitByte w h (1 + h * (dataBytes w + 2)) = Config.termByte := by
  rw [frameInitByte, if_neg (by omega), if_pos (by rw [frameLen_eq]; omega)]

/-- FRAMEINIT's bytes in address order are the sequence of R84. -/
theorem frameInit_bytes (w h : Nat) : (frameInit w h).map (fun c => c.2) = frameSequence w h := by
  have hlen : frameLen w h = 1 + h * (dataBytes w + 2) + 1 := by rw [frameLen_eq]; omega
  have hlines : (List.range (h * (dataBytes w + 2))).map (fun i => frameInitByte w h (1 + i)) =
      ((List.range h).map fun y =>
        [laddr y] ++ List.replicate (dataBytes w) 0x00 ++ [Config.trailerByte]).flatten :=
    (map_range_mul _ h _).trans <| congrArg List.flatten <|
      List.map_congr_left fun y hy => map_frameInitByte_line (List.mem_range.mp hy)
  calc (frameInit w h).map (fun c => c.2)
      = (List.range (1 + h * (dataBytes w + 2) + 1)).map (frameInitByte w h) := by
        simp [frameInit, hlen, Function.comp_def]
    _ = [Config.cfgByte] ++ (List.range (h * (dataBytes w + 2))).map (fun i => frameInitByte w h (1 + i)) ++
          [Config.termByte] := by
        simp only [List.range_succ, List.range_add, List.map_append, List.map_map, List.map_cons, List.map_nil,
          frameInitByte_last]
        rfl
    _ = frameSequence w h := by rw [hlines, frameSequence]

/-- With an admitted geometry, valid handles and the allocator's success, ATTACH does its work (R151, R188). -/
theorem execAttach_of_success {w h : Word} {pin xport : Handle} {s : State} (hl : s.life = .uninit)
    (hg : geometryOk w.toNat h.toNat = true) (hpin : pin.valid = true) (hxport : xport.valid = true)
    (ha : s.allocDraw = true) : execAttach w h 8 pin xport s = .next (s.drew.attachDone w h) := by
  have hr : geometryRefusal w h 8 = none := (geometryRefusal_none_iff w h 8).mpr ⟨rfl, hg⟩
  rw [execAttach, if_neg (not_not.mpr hl), hr]
  simp [hpin, hxport, ha]

/-- Settles O34: ATTACH does its work, and the frame it leaves is FRAMEINIT's. -/
theorem aSuccessfulAttachInitialisesTheDevice : Obligations.ASuccessfulAttachInitialisesTheDevice := by
  unfold Obligations.ASuccessfulAttachInitialisesTheDevice
  intro w h pin xport s hl hmod hw hh hh' hpin hxport ha
  have hg : geometryOk w.toNat h.toNat = true := by simp [geometryOk, hmod, hw, hh, hh']
  refine ⟨frameInit w.toNat h.toNat, ?_, fun _ => rfl, ?_, frameInit_bytes _ _⟩
  · refine (execAttach_of_success hl hg hpin hxport ha).trans ?_
    simp [State.attachDone, State.emit, State.reply, State.drew]
  · rw [frameInit_addresses, frameLen_eq, dataBytes]
    congr 1; omega

end Sys2Proof.Machine
end

section
/-! SUPPORT. The place of every frame address (R54), the place of every pixel's bit (R55), and which surface bytes a
data byte reads (R107). -/

namespace Sys2Proof.Machine

/-! ### The lines of the frame -/

/-- A line and a place in it are the quotient and the remainder of the address by the line's length (R54). -/
theorem lineBase_add_inj {w y k y' k' : Nat} (hk : k ≤ dataBytes w + 1) (hk' : k' ≤ dataBytes w + 1)
    (h : lineBase w y + k = lineBase w y' + k') : y = y' ∧ k = k' := by
  have hsum : (dataBytes w + 2) * y + k = (dataBytes w + 2) * y' + k' := by
    rw [lineBase, lineBase] at h
    rw [Nat.mul_comm, Nat.mul_comm _ y']
    omega
  have hy : y = y' := by
    have hdiv := congrArg (· / (dataBytes w + 2)) hsum
    simpa [Nat.mul_add_div, Nat.div_eq_of_lt (Nat.lt_succ_of_le hk), Nat.div_eq_of_lt (Nat.lt_succ_of_le hk')]
      using hdiv
  subst hy
  exact ⟨rfl, Nat.add_left_cancel hsum⟩

/-- Every byte of a line lies before the terminator. -/
theorem lineBase_add_lt_last {w h y k : Nat} (hy : y < h) (hk : k ≤ dataBytes w + 1) :
    lineBase w y + k < frameLen w h - 1 := by
  have hrow : (y + 1) * (dataBytes w + 2) ≤ h * (dataBytes w + 2) := Nat.mul_le_mul_right _ hy
  rw [Nat.succ_mul] at hrow
  rw [frameLen_eq, lineBase]
  omega

/-- Between the config byte and the terminator every address lies in a line. -/
theorem exists_lineBase_add {w h i : Nat} (hi : i ≠ 0) (hlast : i < frameLen w h - 1) :
    ∃ y k, y < h ∧ k ≤ dataBytes w + 1 ∧ i = lineBase w y + k := by
  have hd : 0 < dataBytes w + 2 := by omega
  rw [frameLen_eq] at hlast
  refine ⟨(i - 1) / (dataBytes w + 2), (i - 1) % (dataBytes w + 2), ?_, ?_, ?_⟩
  · exact (Nat.div_lt_iff_lt_mul hd).mpr (by omega)
  · exact Nat.le_of_lt_succ (Nat.mod_lt _ hd)
  · have hdm := Nat.div_add_mod' (i - 1) (dataBytes w + 2)
    rw [lineBase]
    omega

/-- Settles O17: the addresses between the ends by their line and place, the data addresses by `dataPos_eq_some`. -/
theorem everyFrameAddressHasOnePlace : Obligations.EveryFrameAddressHasOnePlace := by
  unfold Obligations.EveryFrameAddressHasOnePlace
  refine ⟨fun w h i hi => ⟨?_, dataPos_eq_some w h i, ?_⟩, ?_, ?_⟩
  · by_cases h0 : i = 0
    · exact .inl h0
    by_cases hlast : i = frameLen w h - 1
    · exact .inr (.inr (.inr (.inr hlast)))
    obtain ⟨y, k, hy, hk, rfl⟩ := exists_lineBase_add (w := w) (h := h) h0 (by omega)
    cases k with
    | zero => exact .inr (.inl ⟨y, hy, rfl⟩)
    | succ k =>
      obtain hk | rfl := Nat.lt_or_eq_of_le (Nat.le_of_succ_le_succ hk)
      · exact .inr (.inr (.inl ⟨y, k, hy, hk, by omega⟩))
      · exact .inr (.inr (.inr (.inl ⟨y, hy, by rw [dataBytes]; omega⟩)))
  · intro y k y' k' _ _ hk hk' e e'
    exact lineBase_add_inj hk hk' (e.symm.trans e')
  · intro w h y k hy hk
    have hlt := lineBase_add_lt_last hy hk
    have hpos : 0 < lineBase w y := by rw [lineBase]; omega
    exact ⟨by omega, by omega, by omega⟩
  · intro w h
    have hlast : frameLen w h - 1 = 1 + h * (dataBytes w + 2) := by rw [frameLen_eq]; omega
    exact ⟨hlast, by omega⟩

/-! ### The pixels of a data byte -/

/-- A pixel's first surface byte, pixels counted along the lines (R52). -/
theorem pix_eq (w x y : Nat) : pix w x y = 3 * (w * y + x) := by
  rw [pix, lineBytes, Config.bpp]; ring

/-- A pixel is on where LUMA of its three bytes reaches THRESH's 128 (R100, R102). -/
theorem pixelBit_eq_decide (img : Nat → Byte) (w x y : Nat) :
    pixelBit img w x y = decide (128 ≤ (img (3 * (w * y + x))).toNat / 3 + (img (3 * (w * y + x) + 1)).toNat / 2 +
      (img (3 * (w * y + x) + 2)).toNat / 9) := by
  rw [pixelBit, pix_eq]; rfl

/-- A pixel's bit reads its own three bytes only. -/
theorem pixelBit_congr {img img' : Nat → Byte} {w x y : Nat}
    (h : ∀ j, j < 3 → img (3 * (w * y + x) + j) = img' (3 * (w * y + x) + j)) :
    pixelBit img w x y = pixelBit img' w x y := by
  have h0 := h 0 (by decide)
  rw [Nat.add_zero] at h0
  rw [pixelBit_eq_decide, pixelBit_eq_decide, h0, h 1 (by decide), h 2 (by decide)]

/-- Bit `7 - j` of an encoded byte is the bit of its `j`-th pixel (R103, R106). -/
theorem encodeByte_bit (img : Nat → Byte) (w y k : Nat) {j : Nat} (hj : j < 8) :
    (encodeByte img w y k).getLsbD (7 - j) = pixelBit img w (8 * k + j) y := by
  obtain ⟨h7, h6, h5, h4, h3, h2, h1, h0⟩ := pack8_bits (pixelBit img w (8 * k) y) (pixelBit img w (8 * k + 1) y)
    (pixelBit img w (8 * k + 2) y) (pixelBit img w (8 * k + 3) y) (pixelBit img w (8 * k + 4) y)
    (pixelBit img w (8 * k + 5) y) (pixelBit img w (8 * k + 6) y) (pixelBit img w (8 * k + 7) y)
  interval_cases j <;> assumption

/-- An encoded byte reads the 24 bytes of its own eight pixels only (R107). -/
theorem encodeByte_congr {img img' : Nat → Byte} {w y k : Nat}
    (h : ∀ a, 3 * (w * y + 8 * k) ≤ a → a < 3 * (w * y + 8 * k) + 24 → img a = img' a) :
    encodeByte img w y k = encodeByte img' w y k := by
  refine BitVec.eq_of_getLsbD_eq fun i hi => ?_
  have hj : i = 7 - (7 - i) := by omega
  rw [hj, encodeByte_bit _ _ _ _ (by omega), encodeByte_bit _ _ _ _ (by omega)]
  exact pixelBit_congr fun j hj => h _ (by omega) (by omega)

/-- The pixels of a data byte of the panel lie in SURF (R25). -/
theorem dataByte_pixels_le_surfSize {w h y k : Nat} (hy : y < h) (hk : k < dataBytes w) :
    3 * (w * y + 8 * k) + 24 ≤ surfSize w h := by
  have hrow : w * (y + 1) ≤ w * h := Nat.mul_le_mul_left w hy
  rw [Nat.mul_succ] at hrow
  rw [dataBytes] at hk
  rw [surfSize, Config.bpp]
  omega

/-- Settles O18: the frame byte is data byte `x / 8` of line `y`, and pixel `x` is the `x % 8`-th of its eight. -/
theorem aPixelsBitIsAtItsPlace : Obligations.APixelsBitIsAtItsPlace := by
  unfold Obligations.APixelsBitIsAtItsPlace
  intro img w h x y v hw hx hy
  have hk : x / 8 < dataBytes w := by rw [dataBytes]; omega
  have henc : encodedByte img w h (1 + y * (w / 8 + 2) + 1 + x / 8) v = encodeByte img w y (x / 8) :=
    encodedByte_dataAddr img v hy hk
  rw [henc, encodeByte_bit _ _ _ _ (Nat.mod_lt _ (by decide)), Nat.div_add_mod, pixelBit_eq_decide]

end Sys2Proof.Machine
end

section
/-! SUPPORT. The encode window: every choice of candidates is a run of ENC (R64), and host commands leave what no write
of theirs touches as ACQ found it (R65). -/

namespace Sys2Proof.Machine

/-! ### What ENC answers -/

/-- An address of the frame that is a data byte holds the encoded byte after ENC's writes (R123). -/
theorem frameRead?_encodeFrame_dataAddr (img : Nat → Byte) {w h y k : Nat} {f : List Host.Cell} (hy : y < h)
    (hk : k < dataBytes w) (hf : (frameRead? f (dataAddr w y k)).isSome = true) :
    frameRead? (encodeFrame img w h f) (dataAddr w y k) = some (encodeByte img w y k) := by
  obtain ⟨v, hv⟩ := Option.isSome_iff_exists.mp hf
  rw [frameRead?_encodeFrame, hv, Option.map_some, encodedByte_dataAddr img v hy hk]

/-- In P_ENC, ENC is taken and every data byte the frame has is encoded from the image drawn (R123). -/
theorem exec_enc_of_phase {s : State} (hq : s.phase = .enc) :
    ∃ t, exec .enc s = .next t ∧ ∀ y k, y < s.height.toNat → k < dataBytes s.width.toNat →
      (frameRead? s.frame (dataAddr s.width.toNat y k)).isSome = true →
      frameRead? t.frame (dataAddr s.width.toNat y k) = some (encodeByte s.encImage s.width.toNat y k) :=
  ⟨_, whenEnabled_of_enabled (decide_eq_true hq) _ _,
    fun _ _ hy hk hf => frameRead?_encodeFrame_dataAddr s.encImage hy hk hf⟩

/-! ### Every choice of candidates is drawn -/

/-- The draws that make ENC read `img`: at every surface address the place of its byte among the candidates. -/
def State.drawsOf (s : State) (img : Nat → Byte) : Draws :=
  { race := (List.range s.surfSize).map fun a => (a, (s.candidates a).idxOf (img a)) }

/-- With those draws recorded ENC reads the image at every surface address where it is one of the candidates (R64). -/
theorem State.encImage_drawsOf {s : State} {img : Nat → Byte} {a : Nat} (ha : a < s.surfSize)
    (himg : img a ∈ s.candidates a) : ({ s with recorded := s.drawsOf img } : State).encImage a = img a := by
  have hdraw : ({ s with recorded := s.drawsOf img } : State).raceDraw a = (s.candidates a).idxOf (img a) := by
    simp only [State.raceDraw, State.drawsOf]
    rw [List.lookup_graph _ (List.mem_range.mpr ha), Option.getD_some]
  have hlt : (s.candidates a).idxOf (img a) < (s.candidates a).length := List.idxOf_lt_length_iff.mpr himg
  rw [State.encImage_eq_candidate, hdraw]
  change (s.candidates a).getD ((s.candidates a).idxOf (img a) % (s.candidates a).length) _ = img a
  rw [Nat.mod_eq_of_lt hlt, List.getD_eq_getElem _ _ hlt, List.getElem_idxOf]

/-- Settles O24: the image's own draws; a data byte reads surface addresses only. -/
theorem everyRaceOutcomeIsAdmitted : Obligations.EveryRaceOutcomeIsAdmitted := by
  unfold Obligations.EveryRaceOutcomeIsAdmitted
  intro s img hq himg
  obtain ⟨t, ht, hdata⟩ := exec_enc_of_phase (s := { s with recorded := s.drawsOf img }) hq
  refine ⟨s.drawsOf img, t, ht, fun y k hy hk hf => (hdata y k hy hk hf).trans (congrArg some ?_)⟩
  refine encodeByte_congr fun a _ ha => ?_
  have hin : a < s.surfSize := ha.trans_le (dataByte_pixels_le_surfSize hy hk)
  exact State.encImage_drawsOf hin (List.mem_cons.mpr (himg a hin))

/-! ### Host commands inside the window -/

/-- The bytes a write adds to the race sets (R154). -/
theorem mem_raceAt_raceInsertList (bs : List Byte) (m : List Host.Cell) (off a : Nat) (v : Byte) :
    v ∈ raceAt (raceInsertList m off bs) a ↔ (off ≤ a ∧ bs[a - off]? = some v) ∨ v ∈ raceAt m a := by
  rw [mem_raceAt, mem_raceAt, mem_raceInsertList]
  refine or_congr_left ⟨fun ⟨hle, _, hv⟩ => ⟨hle, hv⟩, fun ⟨hle, hv⟩ => ⟨hle, ?_, hv⟩⟩
  obtain ⟨hlt, -⟩ := List.getElem?_eq_some_iff.mp hv
  simp only
  omega

/-- A write adds no byte at an address it does not store to. -/
theorem State.raceAt_writeSurface_eq_nil {s : State} {off a : Nat} {bs : List Byte}
    (ha : a < off ∨ off + bs.length ≤ a) (hr : raceAt s.wr a = []) : raceAt (s.writeSurface off bs).wr a = [] := by
  rw [State.writeSurface_wr]
  split
  · refine List.eq_nil_iff_forall_not_mem.mpr fun v hv => ?_
    rw [mem_raceAt_raceInsertList, hr] at hv
    obtain ⟨hle, hv⟩ | hv := hv
    · obtain ⟨hlt, -⟩ := List.getElem?_eq_some_iff.mp hv
      omega
    · cases hv
  · exact hr

/-- What the commands `is`, run from `s` to `t`, leave of a flush in its encode window: all that ENC reads but the
race sets of the addresses they write. -/
structure KeepsWindow (is : List Instr) (s t : State) : Prop where
  present : s.present = true → t.present = true
  phase : t.phase = s.phase
  snap : t.snap = s.snap
  frame : t.frame = s.frame
  width : t.width = s.width
  height : t.height = s.height
  unraced : ∀ a, (∀ i ∈ is, writesAddress i a = false) → raceAt s.wr a = [] → raceAt t.wr a = []

theorem KeepsWindow.nil (s : State) : KeepsWindow [] s s :=
  ⟨id, rfl, rfl, rfl, rfl, rfl, fun _ _ => id⟩

theorem KeepsWindow.cons {i : Instr} {is : List Instr} {s t u : State} (h : KeepsWindow [i] s t)
    (k : KeepsWindow is t u) : KeepsWindow (i :: is) s u where
  present := k.present ∘ h.present
  phase := k.phase.trans h.phase
  snap := k.snap.trans h.snap
  frame := k.frame.trans h.frame
  width := k.width.trans h.width
  height := k.height.trans h.height
  unraced a ha hr := by
    obtain ⟨hi, his⟩ := List.forall_mem_cons.mp ha
    exact k.unraced a his (h.unraced a (List.forall_mem_singleton.mpr hi) hr)

/-- A step that leaves the race sets keeps the window, whatever it is told to write. -/
theorem KeepsWindow.of_same {i : Instr} {s t : State} (present : s.present = true → t.present = true)
    (phase : t.phase = s.phase) (snap : t.snap = s.snap) (frame : t.frame = s.frame) (width : t.width = s.width)
    (height : t.height = s.height) (wr : t.wr = s.wr) : KeepsWindow [i] s t :=
  ⟨present, phase, snap, frame, width, height, fun _ _ hr => by rw [wr]; exact hr⟩

/-- The addresses an SWRITE leaves lie outside its range (R154). -/
theorem writesAddress_swrite_false {off : Word} {bs : List Byte} {a : Nat} :
    writesAddress (.swrite off bs) a = false ↔ a < off.toNat ∨ off.toNat + bs.length ≤ a := by
  rw [writesAddress, ← Bool.not_eq_true]
  simp only [Bool.and_eq_true, decide_eq_true_eq]
  omega

/-- The addresses an MSTORE leaves lie outside its one byte (R156). -/
theorem writesAddress_mstore_false {off : Word} {v : Byte} {a : Nat} :
    writesAddress (.mstore off v) a = false ↔ a < off.toNat ∨ off.toNat + [v].length ≤ a := by
  rw [writesAddress, decide_eq_false_iff_not, List.length_singleton]
  omega

/-- A step that writes the surface and leaves the rest keeps the window (R64). -/
theorem KeepsWindow.of_write {i : Instr} {s t : State} {off : Nat} {bs : List Byte}
    (outside : ∀ a, writesAddress i a = false → a < off ∨ off + bs.length ≤ a)
    (life : t.life = s.life) (phase : t.phase = s.phase) (snap : t.snap = s.snap) (frame : t.frame = s.frame)
    (width : t.width = s.width) (height : t.height = s.height) (wr : t.wr = (s.writeSurface off bs).wr) :
    KeepsWindow [i] s t :=
  ⟨fun hp => by rw [State.present, life]; exact hp, phase, snap, frame, width, height, fun a ha hr => by
    rw [wr]
    exact State.raceAt_writeSurface_eq_nil (outside a (ha i (List.mem_singleton_self i))) hr⟩

/-- A host command on a device that is there keeps the window: it is no ATTACH, and writes race at their own addresses
only. -/
theorem exec_hcmd_keepsWindow {i : Instr} {s t : State} (hc : i.cls = .hcmd) (hp : s.present = true)
    (e : exec i s = .next t) : KeepsWindow [i] s t := by
  obtain d | f := exec_cases e
  · exact .of_same (fun h => by rw [State.present, d.life]; exact h) d.phase d.snap d.frame d.width d.height d.wr
  · cases f with
    | attach hl _ => simp [State.present, hl] at hp
    | detach _ => exact .of_same (fun _ => rfl) rfl rfl rfl rfl rfl rfl
    | reqfl _ => exact .of_same id rfl rfl rfl rfl rfl rfl
    | swrite _ _ =>
      exact .of_write (fun _ => writesAddress_swrite_false.mp) (by simp) (by simp) (by simp) (by simp) (by simp)
        (by simp) (by simp)
    | mstoreHooked _ _ =>
      exact .of_write (fun _ => writesAddress_mstore_false.mp) (by simp) (by simp) (by simp) (by simp) (by simp)
        (by simp) (by simp)
    | mstoreUnhooked _ _ =>
      exact .of_write (fun _ => writesAddress_mstore_false.mp) rfl rfl rfl rfl rfl rfl rfl
    | _ => cases hc

theorem runInstrs_cons {i : Instr} {is : List Instr} {s t : State} (h : runInstrs (i :: is) s = some t) :
    ∃ u, exec i s = .next u ∧ runInstrs is u = some t := by
  rw [runInstrs] at h
  split at h
  · exact ⟨_, ‹_›, h⟩
  · cases h
  · cases h

/-- Host commands one after the other keep the window. -/
theorem runInstrs_hcmds_keepsWindow {is : List Instr} {s t : State} (hc : ∀ i ∈ is, i.cls = .hcmd)
    (hp : s.present = true) (h : runInstrs is s = some t) : KeepsWindow is s t := by
  induction is generalizing s with
  | nil => cases h; exact .nil _
  | cons i is ih =>
    obtain ⟨u, e, h⟩ := runInstrs_cons h
    obtain ⟨hi, his⟩ := List.forall_mem_cons.mp hc
    have first := exec_hcmd_keepsWindow hi hp e
    exact first.cons (ih his (first.present hp) h)

/-- After ACQ and host commands the encode window is ACQ's: on the surface ACQ found, with the frame and geometry it
found, and unraced where none of them writes (R65, R121). -/
theorem runInstrs_acq_hcmds {is : List Instr} {s t : State} (he : s.acqEnabled = true)
    (hc : ∀ i ∈ is, i.cls = .hcmd) (h : runInstrs (.acq :: is) s = some t) :
    t.phase = .enc ∧ t.snap = s.surf ∧ t.frame = s.frame ∧ t.width = s.width ∧ t.height = s.height ∧
      ∀ a, (∀ i ∈ is, writesAddress i a = false) → raceAt t.wr a = [] := by
  obtain ⟨u, e, h⟩ := runInstrs_cons h
  have hu : u = { (s.clearPending.setLock true) with snap := s.surf, wr := [] }.goto .enc :=
    (Host.Outcome.next.inj ((whenEnabled_of_enabled he _ _).symm.trans e)).symm
  obtain ⟨⟨hl, -⟩, -⟩ : (s.life = .attached ∧ s.phase = .idle) ∧ s.pending = true := by
    simpa [State.acqEnabled] using he
  have hp : u.present = true := by rw [hu]; exact (State.present_iff _).mpr (.inl hl)
  have k := runInstrs_hcmds_keepsWindow hc hp h
  subst hu
  exact ⟨k.phase, k.snap, k.frame, k.width, k.height, fun a ha => k.unraced a ha rfl⟩

/-- Settles O25: the window after the commands is ACQ's, so ENC reads the surface at ACQ wherever no write raced. -/
theorem aWriteBeforeAcquisitionIsEncoded : Obligations.AWriteBeforeAcquisitionIsEncoded := by
  unfold Obligations.AWriteBeforeAcquisitionIsEncoded
  intro s t is he hc h
  obtain ⟨hq, hsnap, hframe, hwidth, hheight, unraced⟩ := runInstrs_acq_hcmds he hc h
  have himg : ∀ a, (∀ i ∈ is, writesAddress i a = false) → t.encImage a = memRead s.surf a := fun a ha => by
    rw [t.encImage_eq_snap a (unraced a ha), hsnap]
  obtain ⟨u, hu, hdata⟩ := exec_enc_of_phase hq
  rw [hframe, hwidth, hheight] at hdata
  refine ⟨hq, fun a ha => ⟨unraced a ha, by rw [hsnap], himg a ha⟩, u, hu, fun y k hy hk hf hw => ?_⟩
  exact (hdata y k hy hk hf).trans (congrArg some (encodeByte_congr fun a h1 h2 => himg a (hw a h1 h2)))

end Sys2Proof.Machine
end

section
/-! SUPPORT. Surface and frame accesses outside their memory (R63). -/

namespace Sys2Proof.Machine

/-- The shape the four access commands share: on a device that is there, a bad range is refused before anything else
(R63, R186). -/
theorem access_refused {s : State} {bad : Bool} (illegal legal : Result) (why : RefuseReason)
    (hp : s.present = true) (hb : bad = true) :
    (if ¬ s.present then illegal else if bad then .next (s.refuse why) else legal) =
      .next { s with refused := true } := by
  rw [if_neg (not_not.mpr hp), if_pos hb]; rfl

/-- Settles O45: each access checks its range by `rangeBad` against the size of its memory. -/
theorem anAccessOutOfRangeIsRefused : Obligations.AnAccessOutOfRangeIsRefused := by
  unfold Obligations.AnAccessOutOfRangeIsRefused
  intro off n v bs s hl
  have hp : s.present = true := s.present_iff.mpr hl
  have hframe : s.frameLen = 1 + s.height.toNat * (s.width.toNat / 8 + 2) + 1 := by
    rw [State.frameLen, frameLen_eq, dataBytes]; omega
  refine ⟨fun h => access_refused _ _ _ hp ((rangeBad_iff ..).mpr ?_),
    fun h => access_refused _ _ _ hp ((rangeBad_iff ..).mpr ?_),
    fun h => access_refused _ _ _ hp ((rangeBad_iff ..).mpr (.inr (Nat.lt_succ_of_le h))),
    fun h => access_refused _ _ _ hp ((rangeBad_iff ..).mpr ?_)⟩
  · exact h.imp_left List.length_eq_zero_iff.mpr
  · exact h.imp_left (congrArg BitVec.toNat)
  · rw [hframe]; exact h.imp_left (congrArg BitVec.toNat)

end Sys2Proof.Machine
end

section
/-! SUPPORT. The encoding: decode and encode are inverse on the listed opcodes and the operands they define (R85–R90). -/

namespace Sys2Proof.Laws.RoundTrip

/-- Every instruction's word decodes to it, by its constructor's lemma. -/
theorem statement (i : Instr) : Statement i := by
  cases i with
  | attach w h bpc pin xport => exact attach w h bpc pin xport
  | detach => exact detach
  | swrite off bs => exact swrite off bs
  | sread off n => exact sread off n
  | mstore off v => exact mstore off v
  | reqfl => exact reqfl
  | status => exact status
  | fread off n => exact fread off n
  | acq => exact acq
  | enc => exact enc
  | xfer => exact xfer
  | xdone r => exact xdone r
  | llow => exact llow
  | lhigh => exact lhigh
  | rel => exact rel
  | dfin => exact dfin
  | luma r g b => exact luma r g b
  | thresh gray => exact thresh gray
  | pack8 b0 b1 b2 b3 b4 b5 b6 b7 => exact pack8 b0 b1 b2 b3 b4 b5 b6 b7
  | laddr y => exact laddr y
  | frameinit w h => exact frameinit w h

end Sys2Proof.Laws.RoundTrip

namespace Sys2Proof.Machine

@[simp] theorem decode_encode (i : Instr) : decode (encode i) = .ok i := (Laws.RoundTrip.statement i).1

theorem encode_injective {i j : Instr} (h : encode i = encode j) : i = j :=
  Except.ok.inj ((decode_encode i).symm.trans ((congrArg decode h).trans (decode_encode j)))

/-- A word that does not decode: its opcode is not listed, and the error names it (R88). -/
theorem decode_error {c : CmdWord} {e : DecodeError} (h : decode c = .error e) :
    e = .reserved c.op ∧ listedOpcode c.op = false := by
  unfold decode at h
  split at h <;> cases h
  refine ⟨rfl, ?_⟩
  simp only [listedOpcode, imp_false, Bool.or_eq_false_iff, Bool.and_eq_false_iff, decide_eq_false_iff_not] at *
  omega

theorem decode_of_unlisted {c : CmdWord} (h : listedOpcode c.op = false) : decode c = .error (.reserved c.op) := by
  cases hd : decode c with
  | ok i =>
    obtain ⟨-, -, listed, -⟩ := decode_ok hd
    exact absurd (h.symm.trans listed) Bool.false_ne_true
  | error e => rw [(decode_error hd).1]

/-- A listed opcode decodes, and only to the instruction whose own word it is: `encode` is injective. -/
theorem decode_eq_ok_iff {c : CmdWord} {i : Instr} :
    decode c = .ok i ↔ listedOpcode c.op = true ∧ encode i = { op := c.op, args := operandsOf c.op c.args } := by
  constructor
  · intro hd
    obtain ⟨-, -, listed, word⟩ := decode_ok hd
    exact ⟨listed, word⟩
  · rintro ⟨listed, word⟩
    cases hd : decode c with
    | ok j =>
      obtain ⟨-, -, -, word'⟩ := decode_ok hd
      rw [encode_injective (word.trans word'.symm)]
    | error e => exact absurd ((decode_error hd).2.symm.trans listed) Bool.false_ne_true

/-- Settles O9: the round trip by constructor, the converses by what a decoded and an undecoded word is. -/
theorem decodeAndEncodeAgree : Obligations.DecodeAndEncodeAgree :=
  ⟨decode_encode, fun _ => decode_of_unlisted, fun _ _ => decode_eq_ok_iff⟩

/-- Settles O10: each written-out word is its instruction's own word, or its opcode is not listed. -/
theorem writtenOutWordsDecode : Obligations.WrittenOutWordsDecode :=
  ⟨decode_encode (.attach 128 64 8 ⟨3, true⟩ ⟨4, true⟩), decode_encode (.swrite 24 [0x00, 0xFF, 0x09]),
    decode_encode (.xdone .err), decode_encode (.luma 255 1 17), decode_of_unlisted (by decide)⟩

end Sys2Proof.Machine
end

section
/-! SUPPORT. What the step of a listing's line is: the decoded instruction where the line's agent may issue it, an
IllegalCommand where a host may not (R86, R88, R185). -/

namespace Sys2Proof.Machine

/-! ### The turn of a line -/

theorem State.fetch_of_line {s : State} {l : Line} {rest : List Line} (hs : s.listing = l :: rest)
    (hw : s.waits l.agent = false) : s.fetch = lineTurn l (s.take l rest) := by
  simp [State.fetch, hs, hw]

theorem lineTurn_of_mayIssue {l : Line} {i : Instr} (s : State) (hd : decode l.word = .ok i)
    (hm : l.agent.mayIssue i.cls = true) : lineTurn l s = .run i s := by
  simp [lineTurn, hd, hm]

/-- A line whose word stands for nothing its agent may issue. -/
theorem lineTurn_of_misissued {l : Line} (s : State)
    (h : ∀ i, decode l.word = .ok i → l.agent.mayIssue i.cls = false) : lineTurn l s = s.misissued l.agent := by
  cases hd : decode l.word with
  | ok i => simp [lineTurn, hd, h i hd]
  | error e => simp [lineTurn, hd]

/-! ### A line its agent may issue -/

/-- The step of such a line is its instruction, from the state with the line taken. -/
theorem step_of_mayIssue {s : State} {l : Line} {rest : List Line} {i : Instr} (hs : s.listing = l :: rest)
    (hw : s.waits l.agent = false) (hd : decode l.word = .ok i) (hm : l.agent.mayIssue i.cls = true) :
    step s = exec i (s.take l rest) := by
  simp [step, State.fetch_of_line hs hw, lineTurn_of_mayIssue _ hd hm]

/-- Settles O5: `take` is the listing's bookkeeping. -/
theorem aStepRunsTheDecodedInstruction : Obligations.AStepRunsTheDecodedInstruction :=
  fun _ _ _ _ => step_of_mayIssue

theorem decodeTableWord_eq_some_iff {nbits w : Nat} {i : Instr} :
    decodeTableWord nbits w = some i ↔ decode (tableWord nbits w) = .ok i := by
  unfold decodeTableWord
  cases decode (tableWord nbits w) <;> simp

/-- Settles O6: the placed line's agent, which R86 gives the opcode, neither waits nor is barred from its class. -/
theorem aPlacedTableWordIsRunNext : Obligations.APlacedTableWordIsRunNext := by
  unfold Obligations.APlacedTableWordIsRunNext
  intro s nbits w i h
  have hd : decode (tableWord nbits w) = .ok i := decodeTableWord_eq_some_iff.mp h
  obtain ⟨op, cls, -, -⟩ := decode_ok hd
  rw [op]
  exact step_of_mayIssue (s := s.withFetchWord nbits w) rfl (s.waits_agentFor _) hd (s.mayIssue_agentFor cls)

/-! ### A line a host may not issue -/

/-- The listed opcodes of class 0x0 (R86). -/
theorem hcmd_opcode_range {op : Byte} (hl : listedOpcode op = true) (hc : opClass op = some .hcmd) :
    0x01 ≤ op.toNat ∧ op.toNat ≤ 0x08 := by
  have low : op.toNat / 16 = 0 := by
    unfold opClass at hc
    split at hc <;> cases hc
    assumption
  simp only [listedOpcode, Bool.or_eq_true, Bool.and_eq_true, decide_eq_true_eq] at hl
  omega

/-- A word whose opcode is no host command's decodes to nothing a host may issue. -/
theorem mayIssue_host_eq_false {word : CmdWord} {i : Instr} (c : Nat)
    (hop : ¬ (0x01 ≤ word.op.toNat ∧ word.op.toNat ≤ 0x08)) (hd : decode word = .ok i) :
    (Agent.host c).mayIssue i.cls = false := by
  obtain ⟨-, cls, listed, -⟩ := decode_ok hd
  exact decide_eq_false fun hc => hop (hcmd_opcode_range listed (hc ▸ cls))

/-- Settles O8: the opcode is reserved or of a class no host issues, and IllegalCommand is only recorded and
returned. -/
theorem anIllegalOpcodeReturnsIllegalCommand : Obligations.AnIllegalOpcodeReturnsIllegalCommand := by
  unfold Obligations.AnIllegalOpcodeReturnsIllegalCommand
  intro s c word d rest hs hc hop
  have hw : s.waits (.host c) = false := decide_eq_false hc
  rw [step, State.fetch_of_line hs hw, lineTurn_of_misissued _ fun _ => mayIssue_host_eq_false c hop]
  rfl

end Sys2Proof.Machine
end

section
/-! SUPPORT. The datapath functions that give a number, a bit or a byte: LUMA (R100, R101), THRESH (R102), PACK8 (R103)
and LADDR (R104), and which surface bytes a data byte reads (R107). -/

namespace Sys2Proof.Machine

/-! ### LUMA and THRESH -/

/-- The largest quotient of each channel (R101). -/
theorem luma_quotients_le (r g b : Byte) : r.toNat / 3 ≤ 85 ∧ g.toNat / 2 ≤ 127 ∧ b.toNat / 9 ≤ 28 := by
  have hr := r.isLt
  have hg := g.isLt
  have hb := b.isLt
  omega

/-- A gray is the sum of three quotients, so at most the sum of the largest ones (R100, R101). -/
theorem luma_le (r g b : Byte) : luma r g b ≤ 240 := by
  obtain ⟨hr, hg, hb⟩ := luma_quotients_le r g b
  rw [luma]; omega

/-- Truncating division and the sum keep the order (R101). -/
theorem luma_mono {r g b r' g' b' : Byte} (hr : r.toNat ≤ r'.toNat) (hg : g.toNat ≤ g'.toNat)
    (hb : b.toNat ≤ b'.toNat) : luma r g b ≤ luma r' g' b' :=
  Nat.add_le_add (Nat.add_le_add (Nat.div_le_div_right hr) (Nat.div_le_div_right hg)) (Nat.div_le_div_right hb)

/-- Settles O11: the value is R100's sum, and its corner values are computed. -/
theorem lumaGivesTheTruncatedSum : Obligations.LumaGivesTheTruncatedSum := by
  unfold Obligations.LumaGivesTheTruncatedSum
  exact ⟨fun _ _ _ _ => rfl, by decide, luma_le⟩

/-- Settles O12: the bounds are the quotients' and their sum's. -/
theorem lumaIsBoundedAndMonotone : Obligations.LumaIsBoundedAndMonotone := by
  unfold Obligations.LumaIsBoundedAndMonotone
  refine ⟨fun r g b => ?_, fun _ _ _ _ _ _ => luma_mono⟩
  obtain ⟨hr, hg, hb⟩ := luma_quotients_le r g b
  exact ⟨hr, hg, hb, luma_le r g b⟩

/-- Settles O13: the comparison is with R8's threshold, and the pixels of R102 are computed. -/
theorem threshIsOnFrom128 : Obligations.ThreshIsOnFrom128 := by
  unfold Obligations.ThreshIsOnFrom128
  exact ⟨fun _ _ _ => rfl, by decide, by decide⟩

/-! ### PACK8 -/

/-- A byte built from its bits, each put below those before it, is their sum by place (R103). -/
theorem pack8_toNat (b0 b1 b2 b3 b4 b5 b6 b7 : Bool) :
    (pack8 b0 b1 b2 b3 b4 b5 b6 b7).toNat = b0.toNat * 128 + b1.toNat * 64 + b2.toNat * 32 + b3.toNat * 16 +
      b4.toNat * 8 + b5.toNat * 4 + b6.toNat * 2 + b7.toNat := by
  have concat : pack8 b0 b1 b2 b3 b4 b5 b6 b7 =
    (((((((BitVec.ofBool b0).concat b1).concat b2).concat b3).concat b4).concat b5).concat b6).concat b7 := rfl
  simp only [concat, BitVec.toNat_concat, BitVec.toNat_ofBool]
  omega

/-- Settles O14: the value by `pack8_toNat`, the bits by `pack8_bits`. -/
theorem pack8PutsTheFirstPixelInTheTopBit : Obligations.Pack8PutsTheFirstPixelInTheTopBit := by
  unfold Obligations.Pack8PutsTheFirstPixelInTheTopBit
  intro b0 b1 b2 b3 b4 b5 b6 b7 s
  exact ⟨pack8 b0 b1 b2 b3 b4 b5 b6 b7, rfl, pack8_toNat .., pack8_bits ..⟩

/-! ### LADDR -/

/-- On its domain LADDR is the bit-reversed 1-based line number (R104). -/
theorem laddr_eq_bitrev8 {y : Nat} (hy : y ≤ 254) : laddr y = bitrev8 (BitVec.ofNat 8 (y + 1)) :=
  if_pos (Nat.succ_le_succ hy)

/-- Bit `7 - j` of a line's address byte is bit `j` of its number (R83). -/
theorem laddr_bit {y j : Nat} (hy : y ≤ 254) (hj : j < 8) : (laddr y).getLsbD (7 - j) = (y + 1).testBit j := by
  have hjj : 7 - (7 - j) = j := by omega
  rw [laddr_eq_bitrev8 hy, bitrev8_bit _ _ (by omega), hjj, BitVec.getLsbD_ofNat, decide_eq_true hj, Bool.true_and]

/-- Reversing a line's address byte gives the line's number back. -/
theorem bitrev8_laddr_toNat {y : Nat} (hy : y ≤ 254) : (bitrev8 (laddr y)).toNat = y + 1 := by
  rw [laddr_eq_bitrev8 hy, bitrev8_bitrev8, BitVec.toNat_ofNat, Nat.mod_eq_of_lt (by omega)]

/-- No line has the address byte 0: reversed it would be line number 0 (R104). -/
theorem laddr_ne_zero {y : Nat} (hy : y ≤ 254) : laddr y ≠ 0 := by
  intro h
  have hnum := bitrev8_laddr_toNat hy
  rw [h] at hnum
  exact Nat.succ_ne_zero y hnum.symm

/-- Lines with one address byte have one number (R104). -/
theorem laddr_injOn {y y' : Nat} (hy : y ≤ 254) (hy' : y' ≤ 254) (h : laddr y = laddr y') : y = y' := by
  have hnum := bitrev8_laddr_toNat hy
  rw [h, bitrev8_laddr_toNat hy'] at hnum
  exact (Nat.succ.inj hnum).symm

/-- Settles O15: the bits by `laddr_bit`; that none is 0 and none is shared, by reversing back. -/
theorem laddrReversesTheLineNumber : Obligations.LaddrReversesTheLineNumber := by
  unfold Obligations.LaddrReversesTheLineNumber
  exact ⟨fun _ _ => rfl, fun _ hy => ⟨fun _ => laddr_bit hy, laddr_ne_zero hy⟩, fun _ _ => laddr_injOn⟩

/-! ### The encoder -/

/-- Settles O19: each bit reads the three bytes of its own pixel. -/
theorem aDataByteDependsOnItsOwnPixels : Obligations.ADataByteDependsOnItsOwnPixels := by
  unfold Obligations.ADataByteDependsOnItsOwnPixels
  exact fun _ _ _ _ _ => encodeByte_congr

end Sys2Proof.Machine
end

section
/-! SUPPORT. The framing bytes: the sequence FRAMEINIT gives (R84, R105), and that no instruction changes a byte of it
that is no data byte (R123). -/

namespace Sys2Proof.Machine

/-! ### FRAMEINIT -/

/-- The sequence of R84 has FRAME_LEN bytes (R8). -/
theorem frameSequence_length (w h : Nat) : (frameSequence w h).length = frameLen w h := by
  rw [← frameInit_bytes, List.length_map, frameInit, List.length_map, List.length_range]

/-- Settles O16: the bytes FRAMEINIT lists in address order are R84's sequence. -/
theorem frameinitGivesTheFrameSequence : Obligations.FrameinitGivesTheFrameSequence := by
  unfold Obligations.FrameinitGivesTheFrameSequence
  intro w h s
  constructor
  · rw [← frameInit_bytes]; rfl
  · rw [frameSequence_length, frameLen_eq, dataBytes]; omega

/-! ### Which addresses hold no data byte -/

/-- An address holds no data byte unless it is one of R54's data addresses. -/
theorem dataPos_eq_none {w h i : Nat} (hi : ∀ y k, y < h → k < dataBytes w → i ≠ dataAddr w y k) :
    dataPos w h i = none := by
  refine Option.eq_none_iff_forall_ne_some.mpr fun ⟨y, k⟩ hs => ?_
  obtain ⟨hy, hk, he⟩ := (dataPos_eq_some w h i y k).mp hs
  exact hi y k hy hk he

/-- The config byte is no data byte. -/
theorem dataPos_zero (w h : Nat) : dataPos w h 0 = none :=
  dataPos_eq_none fun y k _ _ => by rw [dataAddr]; omega

/-- A line's address byte and its trailer are no data bytes. -/
theorem dataPos_lineBase_add {w h y r : Nat} (hr : r = 0 ∨ r = dataBytes w + 1) :
    dataPos w h (lineBase w y + r) = none := by
  refine dataPos_eq_none fun y' k _ hk he => ?_
  rw [dataAddr, Nat.add_assoc] at he
  obtain ⟨-, hrk⟩ := lineBase_add_inj (by omega) (by omega) he
  omega

/-- The terminator is no data byte. -/
theorem dataPos_last (w h : Nat) : dataPos w h (1 + h * (dataBytes w + 2)) = none := by
  refine dataPos_eq_none fun y k hy hk he => ?_
  have hlt := lineBase_add_lt_last (w := w) (k := 1 + k) hy (by omega)
  rw [frameLen_eq] at hlt
  rw [dataAddr] at he
  omega

/-! ### What the instructions leave of the frame -/

/-- An effect that leaves the device attached or detaching writes data bytes only: ENC alone writes the frame (R123). -/
theorem Effect.frameRead?_framing {i : Instr} {s t : State} {a : Nat} (f : Effect s i t) (hs : s.life ≠ .uninit)
    (ht : t.life ≠ .detached) (ha : dataPos s.width.toNat s.height.toNat a = none) :
    frameRead? t.frame a = frameRead? s.frame a := by
  cases f with
  | attach uninit => exact absurd uninit hs
  | enc => exact frameRead?_encodeFrame_framing _ _ ha
  | dfin => exact absurd (by simp) ht
  | _ => simp

/-- A line's address byte and its trailer stand as FRAMEINIT wrote them. -/
theorem State.Inv.frameRead?_lineBase_add {s : State} (h : s.Inv) (hp : s.present = true) {y r : Nat}
    (hy : y < s.height.toNat) (hr : r = 0 ∨ r = dataBytes s.width.toNat + 1) :
    frameRead? s.frame (lineBase s.width.toNat y + r) =
      some (if r = 0 then laddr y else Config.trailerByte) := by
  have hlt := lineBase_add_lt_last (w := s.width.toNat) (k := r) hy (by omega)
  rw [h.frame_framing hp _ (by omega) (dataPos_lineBase_add hr), lineBase, Nat.add_assoc,
    frameInitByte_lineBase hy (by omega)]
  obtain rfl | rfl := hr <;> simp

/-- The lines of a device have the numbers LADDR is given for (R152). -/
theorem State.Inv.height_le {s : State} (h : s.Inv) (hp : s.present = true) : s.height.toNat ≤ 255 := by
  have hg := h.geometry hp
  simp only [geometryOk, Bool.and_eq_true, decide_eq_true_eq] at hg
  exact hg.2

/-- Settles O50: the effects write data bytes only, and the invariant holds the others at FRAMEINIT's values, which are
read off at R54's addresses. -/
theorem theFramingBytesNeverChange : Obligations.TheFramingBytesNeverChange := by
  unfold Obligations.TheFramingBytesNeverChange
  constructor
  · intro i s t hs e ht a ha
    obtain d | f := exec_cases e
    · rw [d.frame]
    · exact f.frameRead?_framing (fun h => by simp [h] at hs) (fun h => by simp [h] at ht) ha
  · intro s h hl
    have hp : s.present = true := s.present_iff.mpr hl
    refine ⟨?_, fun y hy => ⟨?_, ?_⟩, ?_⟩
    · exact h.frame_framing hp 0 (by rw [frameLen_eq]; omega) (dataPos_zero _ _)
    · have hline := h.frameRead?_lineBase_add hp hy (.inl rfl)
      have hnum : y ≤ 254 := by have := h.height_le hp; omega
      rwa [if_pos rfl, laddr_eq_bitrev8 hnum] at hline
    · have htrailer := h.frameRead?_lineBase_add hp hy (.inr rfl)
      rwa [if_neg (Nat.succ_ne_zero _), Nat.add_comm _ 1, ← Nat.add_assoc] at htrailer
    · have hlast := h.frame_framing hp _ (by rw [frameLen_eq]; omega) (dataPos_last _ _)
      rwa [frameInitByte_last] at hlast

end Sys2Proof.Machine
end

section
/-! SUPPORT. What each sequencer step answers when it is enabled, one equation per step, and that one which is not
enabled answers the same state (R120–R130). -/

namespace Sys2Proof.Machine

/-! ### Enabling conditions -/

theorem State.acqEnabled_iff (s : State) :
    s.acqEnabled = true ↔ s.life = .attached ∧ s.phase = .idle ∧ s.pending = true := by
  simp [State.acqEnabled, and_assoc]

theorem State.dfinEnabled_iff (s : State) : s.dfinEnabled = true ↔ s.life = .detaching ∧ s.phase = .idle := by
  simp [State.dfinEnabled]

/-- Settles O21: every sequencer step is taken by `whenEnabled`. -/
theorem anUnenabledStepIsNotTaken : Obligations.AnUnenabledStepIsNotTaken := by
  unfold Obligations.AnUnenabledStepIsNotTaken
  intro i s hc hn
  have stays (t : State) : whenEnabled (s.enabled i) s t = .next s := if_neg (Bool.not_eq_true _ ▸ hn)
  cases i with
  | acq | enc | xfer | xdone | llow | lhigh | rel | dfin => exact stays _
  | _ => cases hc

/-! ### The steps of a flush -/

theorem exec_acq_of_enabled {s : State} (he : s.acqEnabled = true) :
    exec .acq s = .next { s with pending := false, lock := true, snap := s.surf, wr := [], phase := .enc } :=
  whenEnabled_of_enabled he _ _

theorem exec_enc_eq {s : State} (hq : s.phase = .enc) :
    exec .enc s = .next { s with
      frame := encodeFrame s.encImage s.width.toNat s.height.toNat s.frame
      snap := []
      wr := []
      phase := .xfer
      draws := s.draws + 1 } :=
  whenEnabled_of_enabled (decide_eq_true hq) _ _

theorem exec_xfer_of_phase {s : State} (hq : s.phase = .xfer) :
    exec .xfer s = .next { s with
      trace := s.trace ++ [.xfer (frameReadList s.frame 0 s.frameLen)]
      phase := .wait } :=
  whenEnabled_of_enabled (decide_eq_true hq) _ _

theorem exec_xdoneOk_of_phase {s : State} (hq : s.phase = .wait) :
    exec (.xdone .ok) s = .next { s with trace := s.trace ++ [.xferResult .ok], phase := .llow } :=
  whenEnabled_of_enabled (decide_eq_true hq) _ _

theorem exec_xdoneErr_of_phase {s : State} (hq : s.phase = .wait) :
    exec (.xdone .err) s = .next { s with
      trace := s.trace ++ [.xferResult .err] ++ [.log .transportFailure]
      lastErr := .transportFailure
      errCount := saturatingSucc s.errCount
      phase := .rel } :=
  whenEnabled_of_enabled (decide_eq_true hq) _ _

theorem exec_llow_of_phase {s : State} (hq : s.phase = .llow) :
    exec .llow s = .next { s with latch := .low, trace := s.trace ++ [.pin .low], phase := .lhigh } :=
  whenEnabled_of_enabled (decide_eq_true hq) _ _

theorem exec_lhigh_of_phase {s : State} (hq : s.phase = .lhigh) :
    exec .lhigh s = .next { s with latch := .high, trace := s.trace ++ [.pin .high], phase := .rel } :=
  whenEnabled_of_enabled (decide_eq_true hq) _ _

theorem exec_rel_of_phase {s : State} (hq : s.phase = .rel) :
    exec .rel s = .next { s with lock := false, phase := .idle } :=
  whenEnabled_of_enabled (decide_eq_true hq) _ _

/-- Settles O22: its enabling condition and its effect. -/
theorem acqStartsAFlush : Obligations.AcqStartsAFlush := by
  unfold Obligations.AcqStartsAFlush
  exact ⟨State.acqEnabled_iff, fun s hl hi hp => exec_acq_of_enabled (s.acqEnabled_iff.mpr ⟨hl, hi, hp⟩)⟩

/-- Settles O27: the opcode is R86's, and the step waits for its phase. -/
theorem xdoneOkGoesToTheLatch : Obligations.XdoneOkGoesToTheLatch := by
  unfold Obligations.XdoneOkGoesToTheLatch
  exact ⟨fun _ => ⟨rfl, decide_eq_true_iff⟩, fun _ => exec_xdoneOk_of_phase⟩

/-- Settles O29: the opcodes are R86's, and each step waits for its phase. -/
theorem theLatchPulseIsLowThenHigh : Obligations.TheLatchPulseIsLowThenHigh := by
  unfold Obligations.TheLatchPulseIsLowThenHigh
  exact ⟨fun _ => ⟨rfl, rfl, decide_eq_true_iff, decide_eq_true_iff⟩, fun _ => exec_llow_of_phase,
    fun _ => exec_lhigh_of_phase⟩

/-- Settles O30: after REL only the lifecycle state and the request say what is enabled. -/
theorem relReleasesTheLock : Obligations.RelReleasesTheLock := by
  unfold Obligations.RelReleasesTheLock
  refine ⟨fun _ => ⟨rfl, decide_eq_true_iff⟩, fun s hq => ⟨exec_rel_of_phase hq, fun hl hp => ?_, fun hl => ?_⟩⟩
  · exact (State.acqEnabled_iff _).mpr ⟨hl, rfl, hp⟩
  · exact (State.dfinEnabled_iff _).mpr ⟨hl, rfl⟩

/-- Settles O23: the image is the one drawn, whose bytes are candidates; of the frame only the data bytes are
written. -/
theorem encRewritesTheDataBytes : Obligations.EncRewritesTheDataBytes := by
  unfold Obligations.EncRewritesTheDataBytes
  intro s hq
  refine ⟨s.encImage, _, fun a => List.mem_cons.mp (s.encImage_mem a), exec_enc_eq hq, ?_, ?_, ?_⟩
  · exact fun y k hy hk hf => frameRead?_encodeFrame_dataAddr s.encImage hy hk hf
  · exact fun i hi => frameRead?_encodeFrame_framing s.encImage s.frame (dataPos_eq_none hi)
  · exact encodeFrame_addresses _ _ _ _

/-! ### What XFER sends -/

/-- Reading a stretch of addresses that all hold a byte gives one byte per address, in their order (R11). -/
theorem frameReadList_of_isSome {f : List Host.Cell} {i n : Nat}
    (h : ∀ k, k < n → (frameRead? f (i + k)).isSome = true) :
    (frameReadList f i n).length = n ∧ ∀ k, k < n → (frameReadList f i n)[k]? = frameRead? f (i + k) := by
  have hread : ∀ k, k < n → frameRead? f (i + k) = some ((frameRead? f (i + k)).getD 0) := fun k hk => by
    obtain ⟨v, hv⟩ := Option.isSome_iff_exists.mp (h k hk)
    rw [hv, Option.getD_some]
  rw [frameReadList_eq_map f (fun a => (frameRead? f a).getD 0) i n hread]
  refine ⟨by simp, fun k hk => ?_⟩
  rw [List.getElem?_map, List.getElem?_range hk, Option.map_some, ← hread k hk]

/-- A device's frame holds a byte at each of its addresses (R28, R54). -/
theorem State.Inv.isSome_frameRead? {s : State} (h : s.Inv) (hp : s.present = true) {i : Nat} (hi : i < s.frameLen) :
    (frameRead? s.frame i).isSome = true := by
  rw [frameRead?_isSome, h.frame_dense hp]
  exact List.mem_range.mpr hi

/-- `FRAME_LEN` by lines (R8). -/
theorem State.frameLen_eq_lines (s : State) : s.frameLen = 1 + s.height.toNat * (s.width.toNat / 8 + 2) + 1 := by
  rw [State.frameLen, frameLen_eq, dataBytes]; omega

/-- The bytes read over the whole of a device's frame. -/
theorem State.Inv.frameReadList_whole {s : State} (h : s.Inv) (hp : s.present = true) :
    (frameReadList s.frame 0 s.frameLen).length = s.frameLen ∧
    ∀ i, i < s.frameLen → (frameReadList s.frame 0 s.frameLen)[i]? = frameRead? s.frame i := by
  obtain ⟨hlen, hget⟩ := frameReadList_of_isSome (f := s.frame) (i := 0) (n := s.frameLen)
    fun k hk => by rw [Nat.zero_add]; exact h.isSome_frameRead? hp hk
  exact ⟨hlen, fun i hi => by rw [hget i hi, Nat.zero_add]⟩

/-- Settles O26: a flush in P_XFER is of a device, whose frame has all its bytes. -/
theorem xferSendsTheWholeFrame : Obligations.XferSendsTheWholeFrame := by
  unfold Obligations.XferSendsTheWholeFrame
  intro s hq
  refine ⟨_, exec_xfer_of_phase hq, fun h => ?_⟩
  obtain ⟨hlen, hget⟩ := h.frameReadList_whole (h.present_of_phase (by simp [hq]))
  exact ⟨hlen.trans s.frameLen_eq_lines, fun i hi => hget i (hlen ▸ hi)⟩

/-! ### DFIN -/

/-- The blocked context, if any, is released with result 0, and nothing else changes (R130, R153). -/
theorem State.releaseDetacher_eq (s : State) :
    s.releaseDetacher = { s with
      detacher := none
      replies := s.replies ++ (s.detacher.map fun c => { ctx := c, code := .noError }).toList } := by
  unfold State.releaseDetacher
  cases hd : s.detacher with
  | some c => rfl
  | none =>
    rw [Option.map_none, Option.toList_none, List.append_nil]
    exact congrArg (fun d => ({ s with detacher := d } : State)) hd

theorem exec_dfin_of_enabled {s : State} (he : s.dfinEnabled = true) :
    exec .dfin s = .next { s with
      surf := []
      frame := []
      pending := false
      latch := .undriven
      width := 0
      height := 0
      life := .detached
      trace := s.trace ++ [.detached]
      detacher := none
      replies := s.replies ++ (s.detacher.map fun c => { ctx := c, code := .noError }).toList } :=
  (whenEnabled_of_enabled he _ _).trans (congrArg Host.Outcome.next (State.releaseDetacher_eq _))

/-- Settles O31: the replies grow by the blocked context's, if there is one. -/
theorem dfinCompletesTheDetach : Obligations.DfinCompletesTheDetach := by
  unfold Obligations.DfinCompletesTheDetach
  intro s hl hi
  refine ⟨_, exec_dfin_of_enabled (s.dfinEnabled_iff.mpr ⟨hl, hi⟩), rfl, fun c hc => ?_, fun hc => ?_⟩
  · simp [hc]
  · simp [hc]

end Sys2Proof.Machine
end

section
/-! SUPPORT. Which sequencer step is next: at most one is enabled (R120), the sequencer takes it where no line can be
taken (R122), and the phase moves along R137's table. -/

namespace Sys2Proof.Machine

/-! ### The sequencer's own step -/

/-- What the sequencer takes by itself is an enabled step. -/
theorem State.enabled_of_ownStep {s : State} {i : Instr} (h : s.ownStep = some i) :
    i.cls = .uop ∧ s.enabled i = true := by
  unfold State.ownStep at h
  cases hq : s.phase <;> simp only [hq] at h
  case idle =>
    split at h
    · cases h; exact ⟨rfl, ‹_›⟩
    · split at h <;> cases h
      exact ⟨rfl, ‹_›⟩
  case wait =>
    obtain ⟨r, -, rfl⟩ := Option.map_eq_some_iff.mp h
    exact ⟨rfl, decide_eq_true hq⟩
  all_goals cases h; exact ⟨rfl, decide_eq_true hq⟩

/-- Outside P_WAIT, where the transport answers, an enabled step is the sequencer's own. -/
theorem State.ownStep_of_enabled {s : State} {i : Instr} (hw : s.phase ≠ .wait) (hc : i.cls = .uop)
    (he : s.enabled i = true) : s.ownStep = some i := by
  cases i with
  | acq =>
    obtain ⟨-, hi, -⟩ := s.acqEnabled_iff.mp he
    simp only [State.ownStep, hi]
    exact if_pos he
  | dfin =>
    obtain ⟨hl, hi⟩ := s.dfinEnabled_iff.mp he
    have hacq : s.acqEnabled ≠ true := fun h => by simp [hl, s.acqEnabled_iff] at h
    simp only [State.ownStep, hi]
    exact (if_neg hacq).trans (if_pos he)
  | xdone r => exact absurd (of_decide_eq_true he) hw
  | enc | xfer | llow | lhigh | rel => simp only [State.ownStep, of_decide_eq_true he]
  | _ => cases hc

/-- In P_WAIT only XDONE is enabled. -/
theorem State.xdone_of_enabled {s : State} {i : Instr} (hw : s.phase = .wait) (hc : i.cls = .uop)
    (he : s.enabled i = true) : ∃ r, i = .xdone r := by
  cases i with
  | xdone r => exact ⟨r, rfl⟩
  | acq => simp [s.acqEnabled_iff.mp he] at hw
  | dfin => simp [s.dfinEnabled_iff.mp he] at hw
  | enc | xfer | llow | lhigh | rel => cases hw.symm.trans (of_decide_eq_true he)
  | _ => cases hc

/-- Settles O20: in P_WAIT both are XDONE, elsewhere both are the sequencer's own step. -/
theorem atMostOneSequencerStepIsEnabled : Obligations.AtMostOneSequencerStepIsEnabled := by
  unfold Obligations.AtMostOneSequencerStepIsEnabled
  intro s i j hi hj ei ej
  by_cases hw : s.phase = .wait
  · obtain ⟨r, rfl⟩ := State.xdone_of_enabled hw hi ei
    obtain ⟨r', rfl⟩ := State.xdone_of_enabled hw hj ej
    rfl
  · rw [Option.some.inj ((State.ownStep_of_enabled hw hi ei).symm.trans (State.ownStep_of_enabled hw hj ej))]

/-- With no line to take the turn is the sequencer's. -/
theorem State.fetch_eq_ownTurn {s : State}
    (h : s.listing = [] ∨ ∃ l rest, s.listing = l :: rest ∧ s.waits l.agent = true) : s.fetch = s.ownTurn := by
  obtain h | ⟨l, rest, h, hw⟩ := h
  · simp [State.fetch, h]
  · simp [State.fetch, h, hw]

theorem step_of_ownStep {s : State} {i : Instr} (hf : s.fetch = s.ownTurn) (h : s.ownStep = some i) :
    step s = exec i s.unrecorded := by
  simp [step, hf, State.ownTurn, h]

theorem step_of_no_ownStep {s : State} (hf : s.fetch = s.ownTurn) (h : s.ownStep = none) : step s = .next s := by
  simp [step, hf, State.ownTurn, h]

/-- Settles O7: the sequencer's own step is enabled, and it has one unless the transport's answer is missing. -/
theorem theSequencerMovesByItself : Obligations.TheSequencerMovesByItself := by
  unfold Obligations.TheSequencerMovesByItself
  intro s h
  have hf := State.fetch_eq_ownTurn h
  refine ⟨fun i hi => ?_, fun hn => ⟨step_of_no_ownStep hf hn, fun i hc he => ?_⟩⟩
  · obtain ⟨hc, he⟩ := State.enabled_of_ownStep hi
    exact ⟨hc, he, step_of_ownStep hf hi⟩
  · have hw : s.phase = .wait := by
      by_contra hw
      cases hn.symm.trans (State.ownStep_of_enabled hw hc he)
    simp only [State.ownStep, hw, Option.map_eq_none_iff] at hn
    exact ⟨hw, hn⟩

/-! ### A due flush with no line left -/

/-- One more step of a run. -/
theorem run_succ_of_step {s t : State} (k : Nat) (h : step s = .next t) :
    Host.Core.run core (k + 1) s = Host.Core.run core k t := by
  simp [Host.Core.run, core, h]

/-- A flush in this phase, with no line left. -/
structure State.FlushingAt (p : Phase) (s : State) : Prop where
  listing : s.listing = []
  phase : s.phase = p
  lock : s.lock = true

/-- The sequencer's own step of a flush is the next, and leads to the phase it goes to. -/
theorem State.FlushingAt.advance {p q : Phase} {i : Instr} {s t : State} (h : s.FlushingAt p) (hi : s.ownStep = some i)
    (e : exec i s.unrecorded = .next t) (listing : t.listing = s.listing) (phase : t.phase = q)
    (lock : t.lock = s.lock) : ∃ t, step s = .next t ∧ t.FlushingAt q :=
  ⟨t, (step_of_ownStep (State.fetch_eq_ownTurn (.inl h.listing)) hi).trans e, listing.trans h.listing, phase,
    lock.trans h.lock⟩

theorem step_of_acqEnabled {s : State} (hl : s.listing = []) (he : s.acqEnabled = true) :
    ∃ t, step s = .next t ∧ t.FlushingAt .enc := by
  obtain ⟨-, hi, -⟩ := s.acqEnabled_iff.mp he
  have hown : s.ownStep = some .acq := State.ownStep_of_enabled (by simp [hi]) rfl he
  exact ⟨_, (step_of_ownStep (State.fetch_eq_ownTurn (.inl hl)) hown).trans (exec_acq_of_enabled he), hl, rfl, rfl⟩

section
variable {s : State}

theorem State.FlushingAt.enc (h : s.FlushingAt .enc) : ∃ t, step s = .next t ∧ t.FlushingAt .xfer :=
  h.advance (by simp [State.ownStep, h.phase]) (exec_enc_eq h.phase) rfl rfl rfl

theorem State.FlushingAt.xfer (h : s.FlushingAt .xfer) : ∃ t, step s = .next t ∧ t.FlushingAt .wait :=
  h.advance (by simp [State.ownStep, h.phase]) (exec_xfer_of_phase h.phase) rfl rfl rfl

theorem State.FlushingAt.xdoneOk (h : s.FlushingAt .wait) (ho : Config.xferOracle s.draws = some .ok) :
    ∃ t, step s = .next t ∧ t.FlushingAt .llow :=
  h.advance (by simp [State.ownStep, h.phase, ho]) (exec_xdoneOk_of_phase h.phase) rfl rfl rfl

theorem State.FlushingAt.xdoneErr (h : s.FlushingAt .wait) (ho : Config.xferOracle s.draws = some .err) :
    ∃ t, step s = .next t ∧ t.FlushingAt .rel :=
  h.advance (by simp [State.ownStep, h.phase, ho]) (exec_xdoneErr_of_phase h.phase) rfl rfl rfl

theorem State.FlushingAt.llow (h : s.FlushingAt .llow) : ∃ t, step s = .next t ∧ t.FlushingAt .lhigh :=
  h.advance (by simp [State.ownStep, h.phase]) (exec_llow_of_phase h.phase) rfl rfl rfl

theorem State.FlushingAt.lhigh (h : s.FlushingAt .lhigh) : ∃ t, step s = .next t ∧ t.FlushingAt .rel :=
  h.advance (by simp [State.ownStep, h.phase]) (exec_lhigh_of_phase h.phase) rfl rfl rfl

/-- REL ends the flush (R129). -/
theorem State.FlushingAt.rel (h : s.FlushingAt .rel) :
    ∃ t, step s = .next t ∧ t.phase = .idle ∧ t.lock = false :=
  have hown : s.ownStep = some .rel := by simp [State.ownStep, h.phase]
  ⟨_, (step_of_ownStep (State.fetch_eq_ownTurn (.inl h.listing)) hown).trans (exec_rel_of_phase h.phase), rfl, rfl⟩

end

/-- A block that answers itself stays as it is (R131). -/
theorem run_of_step_eq_self {s : State} (h : step s = .next s) (n : Nat) : Host.Core.run core n s = .next s := by
  induction n with
  | zero => rfl
  | succ n ih => rw [run_succ_of_step n h, ih]

/-- Settles O58: phase by phase along the flush; without an answer the sequencer has no step of its own. -/
theorem aDueFlushRunsToItsEnd : Obligations.ADueFlushRunsToItsEnd := by
  unfold Obligations.ADueFlushRunsToItsEnd
  intro s hl he
  obtain ⟨a, ha, fa⟩ := step_of_acqEnabled hl he
  obtain ⟨b, hb, fb⟩ := fa.enc
  obtain ⟨t, ht, ft⟩ := fb.xfer
  refine ⟨t, by rw [run_succ_of_step _ ha, run_succ_of_step _ hb, run_succ_of_step _ ht]; rfl, ft.phase, ft.lock, ?_⟩
  split
  case h_1 ho =>
    obtain ⟨c, hc, fc⟩ := ft.xdoneOk ho
    obtain ⟨d, hd, fd⟩ := fc.llow
    obtain ⟨e, he, fe⟩ := fd.lhigh
    obtain ⟨u, hu, fu⟩ := fe.rel
    exact ⟨u, by
      rw [run_succ_of_step _ hc, run_succ_of_step _ hd, run_succ_of_step _ he, run_succ_of_step _ hu]; rfl, fu⟩
  case h_2 ho =>
    obtain ⟨c, hc, fc⟩ := ft.xdoneErr ho
    obtain ⟨u, hu, fu⟩ := fc.rel
    exact ⟨u, by rw [run_succ_of_step _ hc, run_succ_of_step _ hu]; rfl, fu⟩
  case h_3 ho =>
    have stuck : t.ownStep = none := by simp [State.ownStep, ft.phase, ho]
    exact run_of_step_eq_self (step_of_no_ownStep (State.fetch_eq_ownTurn (.inl ft.listing)) stuck)

/-! ### The transition table -/

/-- A successful ATTACH finds and leaves the block idle. -/
theorem State.Inv.attachDone_phase_eq {s : State} (h : s.Inv) (hl : s.life = .uninit) (w h' : Word) :
    (s.drew.attachDone w h').phase = s.phase := (h.idle_of_uninit hl).symm

/-- Settles O32: of the effects only those of the table's rows change the phase, and each row's step is taken by its
equation. -/
theorem thePhaseFollowsTheTransitionTable : Obligations.ThePhaseFollowsTheTransitionTable := by
  unfold Obligations.ThePhaseFollowsTheTransitionTable
  constructor
  · intro i s t h e hne
    obtain d | f := exec_cases e
    · exact absurd d.phase hne
    · cases f with
      | attach hl _ => exact absurd (h.attachDone_phase_eq hl _ _) hne
      | acq he =>
        obtain ⟨hl, hi, hp⟩ := s.acqEnabled_iff.mp he
        exact .inl ⟨hi, rfl, hl, hp, rfl⟩
      | enc hq | xfer hq | xdoneOk hq | xdoneErr hq | llow hq | lhigh hq | rel hq => simp [hq]
      | _ => exact absurd (by simp) hne
  · intro s
    exact ⟨fun hi hl hp => ⟨_, exec_acq_of_enabled (s.acqEnabled_iff.mpr ⟨hl, hi, hp⟩), rfl⟩,
      fun hq => ⟨_, exec_enc_eq hq, rfl⟩, fun hq => ⟨_, exec_xfer_of_phase hq, rfl⟩,
      fun hq => ⟨_, exec_xdoneOk_of_phase hq, rfl⟩, fun hq => ⟨_, exec_xdoneErr_of_phase hq, rfl⟩,
      fun hq => ⟨_, exec_llow_of_phase hq, rfl⟩, fun hq => ⟨_, exec_lhigh_of_phase hq, rfl⟩,
      fun hq => ⟨_, exec_rel_of_phase hq, rfl⟩,
      fun hi hl => ⟨_, exec_dfin_of_enabled (s.dfinEnabled_iff.mpr ⟨hl, hi⟩), hi, rfl⟩⟩

end Sys2Proof.Machine
end

section
/-! SUPPORT. A flush that no other agent's step interrupts (R92, R132): what it sends, what the panel shows after it
(R136), and what a failed transfer leaves (R138). -/

namespace Sys2Proof.Machine

/-! ### Runs of instructions -/

theorem runInstrs_of_next {i : Instr} {s t : State} (e : exec i s = .next t) (is : List Instr) :
    runInstrs (i :: is) s = runInstrs is t := by
  rw [runInstrs, e]

/-- A run keeps the invariant. -/
theorem State.Inv.runInstrs {is : List Instr} {s t : State} (h : s.Inv) (r : runInstrs is s = some t) : t.Inv := by
  induction is generalizing s with
  | nil => cases r; exact h
  | cons i is ih =>
    obtain ⟨u, e, r⟩ := runInstrs_cons r
    exact ih (h.exec e) r

/-! ### Before the transfer -/

/-- The state with the flush encoded and nothing raced: every data byte is of the surface as it stands (R106, R123). -/
def State.encoded (s : State) : State :=
  { s with
    pending := false
    lock := true
    frame := encodeFrame (memRead s.surf) s.width.toNat s.height.toNat s.frame
    snap := []
    wr := []
    phase := .xfer
    draws := s.draws + 1 }

/-- The bytes such a flush sends (R124). -/
def State.flushBytes (s : State) : List Byte := frameReadList s.encoded.frame 0 s.frameLen

/-- ENC straight after ACQ finds no write in its window, so it reads the surface at ACQ. -/
theorem runInstrs_acq_enc {s : State} (he : s.acqEnabled = true) (is : List Instr) :
    runInstrs (.acq :: .enc :: is) s = runInstrs is s.encoded := by
  have image : ({ s with pending := false, lock := true, snap := s.surf, wr := [], phase := .enc } : State).encImage =
      memRead s.surf := funext fun a => State.encImage_eq_snap _ a rfl
  rw [runInstrs_of_next (exec_acq_of_enabled he), runInstrs_of_next (exec_enc_eq rfl), image]
  rfl

theorem State.Inv.encoded {s : State} (h : s.Inv) (he : s.acqEnabled = true) : s.encoded.Inv :=
  h.runInstrs (runInstrs_acq_enc he [])

/-! ### The transfer and after it -/

/-- An accepted transfer, its latch pulse and the end of the flush (R124–R129). -/
theorem runInstrs_accepted {s : State} (hq : s.phase = .xfer) :
    runInstrs [.xfer, .xdone .ok, .llow, .lhigh, .rel] s = some { s with
      lock := false
      latch := .high
      trace := s.trace ++ [.xfer (frameReadList s.frame 0 s.frameLen), .xferResult .ok, .pin .low, .pin .high]
      phase := .idle } := by
  rw [runInstrs_of_next (exec_xfer_of_phase hq), runInstrs_of_next (exec_xdoneOk_of_phase rfl),
    runInstrs_of_next (exec_llow_of_phase rfl), runInstrs_of_next (exec_lhigh_of_phase rfl),
    runInstrs_of_next (exec_rel_of_phase rfl)]
  simp [runInstrs]

/-- A failed transfer and the end of the flush (R126, R129). -/
theorem runInstrs_failed {s : State} (hq : s.phase = .xfer) :
    runInstrs [.xfer, .xdone .err, .rel] s = some { s with
      lock := false
      trace := s.trace ++ [.xfer (frameReadList s.frame 0 s.frameLen), .xferResult .err, .log .transportFailure]
      lastErr := .transportFailure
      errCount := saturatingSucc s.errCount
      phase := .idle } := by
  rw [runInstrs_of_next (exec_xfer_of_phase hq), runInstrs_of_next (exec_xdoneErr_of_phase rfl),
    runInstrs_of_next (exec_rel_of_phase rfl)]
  simp [runInstrs]

/-! ### What the panel shows -/

/-- A transfer accepted and pulsed is committed, whatever came before (R136). -/
theorem committed_accepted (tr : List Event) (bs : List Byte) :
    committed (tr ++ [.xfer bs, .xferResult .ok, .pin .low, .pin .high]) = some bs := by
  simp [committed, panelAfter, List.foldl_append, Panel.see, Panel.onResult, Panel.onPin]

/-- A failed transfer leaves what was committed (R136, R218). -/
theorem committed_failed (tr : List Event) (bs : List Byte) :
    committed (tr ++ [.xfer bs, .xferResult .err, .log .transportFailure]) = committed tr := by
  simp [committed, panelAfter, List.foldl_append, Panel.see, Panel.onResult]

/-! ### The bytes sent -/

/-- Each byte sent is the encoded frame's at its address, FRAME_LEN of them (R124). -/
theorem State.Inv.flushBytes {s : State} (h : s.Inv) (he : s.acqEnabled = true) :
    s.flushBytes.length = s.frameLen ∧
    ∀ i, i < s.frameLen → s.flushBytes[i]? = frameRead? s.encoded.frame i :=
  (h.encoded he).frameReadList_whole ((h.encoded he).present_of_phase (by simp [State.encoded]))

/-- The data bytes sent are the encoding of the surface at ACQ (R106, R132). -/
theorem State.Inv.flushBytes_dataAddr {s : State} (h : s.Inv) (he : s.acqEnabled = true) {y k : Nat}
    (hy : y < s.height.toNat) (hk : k < dataBytes s.width.toNat) :
    s.flushBytes[dataAddr s.width.toNat y k]? = some (encodeByte (memRead s.surf) s.width.toNat y k) := by
  have hp : s.present = true := s.present_iff.mpr (.inl (s.acqEnabled_iff.mp he).1)
  have hlt : dataAddr s.width.toNat y k < s.frameLen := dataAddr_lt_frameLen hy hk
  rw [(h.flushBytes he).2 _ hlt]
  exact frameRead?_encodeFrame_dataAddr _ hy hk (h.isSome_frameRead? hp hlt)

/-- The address bytes sent are the bit-reversed line numbers (R104, R105). -/
theorem State.Inv.flushBytes_lineBase {s : State} (h : s.Inv) (he : s.acqEnabled = true) {y : Nat}
    (hy : y < s.height.toNat) :
    s.flushBytes[lineBase s.width.toNat y]? = some (bitrev8 (BitVec.ofNat 8 (y + 1))) := by
  have hlt : lineBase s.width.toNat y < s.frameLen :=
    (lineBase_add_lt_last (k := 0) hy (Nat.zero_le _)).trans_le (Nat.sub_le _ _)
  obtain ⟨-, framing⟩ := theFramingBytesNeverChange
  obtain ⟨-, line, -⟩ := framing s.encoded (h.encoded he) (.inl (s.acqEnabled_iff.mp he).1)
  rw [(h.flushBytes he).2 _ hlt]
  exact (line y hy).1

/-- Settles O51: the seven steps by `runInstrs_acq_enc` and `runInstrs_accepted`; the bytes sent are committed. -/
theorem aFlushCommitsTheSurfaceAtAcquisition : Obligations.AFlushCommitsTheSurfaceAtAcquisition := by
  unfold Obligations.AFlushCommitsTheSurfaceAtAcquisition
  intro s h he
  refine ⟨_, s.flushBytes, (runInstrs_acq_enc he _).trans (runInstrs_accepted rfl), rfl, committed_accepted _ _,
    (h.flushBytes he).1.trans s.frameLen_eq_lines, fun y k hy hk => h.flushBytes_dataAddr he hy hk,
    fun y hy => h.flushBytes_lineBase he hy, rfl, rfl, rfl, rfl, rfl, rfl⟩

/-- Settles O52: the five steps by `runInstrs_acq_enc` and `runInstrs_failed`; the failed transfer commits nothing. -/
theorem aFailedFlushCommitsNothingAndReleasesTheLock :
    Obligations.AFailedFlushCommitsNothingAndReleasesTheLock := by
  unfold Obligations.AFailedFlushCommitsNothingAndReleasesTheLock
  intro s he
  exact ⟨_, s.flushBytes, (runInstrs_acq_enc he _).trans (runInstrs_failed rfl), rfl, committed_failed _ _,
    rfl, rfl, rfl, rfl, rfl, rfl, rfl⟩

end Sys2Proof.Machine
end

section
/-! SUPPORT. What every instruction does: it answers a next state, and what it adds to the trace, said once. -/

namespace Sys2Proof.Machine

theorem answers_ite {c : Prop} [Decidable c] {x y : Result} (hx : ∃ t, x = .next t) (hy : ∃ t, y = .next t) :
    ∃ t, (if c then x else y) = .next t := by
  split <;> assumption

/-- No meaning stops the machine. -/
theorem exec_answers (i : Instr) (s : State) : ∃ t, exec i s = .next t := by
  cases i with
  | attach w h bpc pin xport =>
    refine answers_ite ⟨_, rfl⟩ ?_
    cases geometryRefusal w h bpc with
    | some why => exact ⟨_, rfl⟩
    | none => exact answers_ite ⟨_, rfl⟩ (answers_ite ⟨_, rfl⟩ ⟨_, rfl⟩)
  | detach => exact answers_ite ⟨_, rfl⟩ ⟨_, rfl⟩
  | swrite | sread | mstore | fread => exact answers_ite ⟨_, rfl⟩ (answers_ite ⟨_, rfl⟩ ⟨_, rfl⟩)
  | reqfl =>
    simp only [exec, execReqfl]
    cases s.life <;> exact ⟨_, rfl⟩
  | acq | enc | xfer | xdone | llow | lhigh | rel | dfin => exact answers_ite ⟨_, rfl⟩ ⟨_, rfl⟩
  | status | luma | thresh | pack8 | laddr | frameinit => exact ⟨_, rfl⟩

/-- What an instruction adds to the trace: nothing, a failed ATTACH's event, or the events of its effect (R37). -/
theorem exec_trace_cases {i : Instr} {s t : State} (e : exec i s = .next t) :
    t.trace = s.trace ∨ (∃ c, t.trace = s.trace ++ [.attachFailed c]) ∨ Effect s i t := by
  have quiet {c : ErrorCode} (hc : c ≠ .transportFailure) (u : State) : (u.hostError c).trace = u.trace := by
    simp [State.hostError, State.raiseError_trace, hc]
  have illegal : (s.hostError .illegalState).trace = s.trace := quiet (by decide) s
  have uop {b : Bool} {u : State} (e : whenEnabled b s u = .next t) (effect : b = true → Effect s i u) :
      t.trace = s.trace ∨ (∃ c, t.trace = s.trace ++ [.attachFailed c]) ∨ Effect s i t := by
    obtain ⟨hb, rfl⟩ | ⟨-, rfl⟩ := (whenEnabled_next b s u t).mp e
    · exact .inr (.inr (effect hb))
    · exact .inl rfl
  cases i with
  | attach w h bpc pin xport =>
    obtain ⟨-, rfl⟩ | ⟨-, why, rfl⟩ | ⟨-, rfl⟩ | ⟨hl, hg, rfl⟩ | ⟨-, rfl⟩ := execAttach_cases e
    · exact .inl illegal
    · exact .inl rfl
    · exact .inr (.inl ⟨_, quiet (by decide) _⟩)
    · exact .inr (.inr (.attach hl hg))
    · exact .inr (.inl ⟨_, quiet (by decide) _⟩)
  | detach => obtain ⟨-, rfl⟩ | ⟨-, rfl⟩ := execDetach_cases e <;> simp [illegal]
  | swrite off bs => obtain ⟨-, rfl⟩ | ⟨-, rfl⟩ | ⟨-, -, -, rfl⟩ := execSwrite_cases e <;> simp [illegal]
  | sread off n => obtain ⟨-, rfl⟩ | ⟨-, rfl⟩ | ⟨-, rfl⟩ := execSread_cases e <;> simp [illegal]
  | mstore off v => obtain ⟨-, rfl⟩ | ⟨-, rfl⟩ | ⟨-, -, rfl | rfl⟩ := execMstore_cases e <;> simp [illegal]
  | reqfl => obtain ⟨-, rfl⟩ | ⟨-, rfl⟩ | ⟨-, rfl⟩ := execReqfl_cases e <;> simp [illegal]
  | fread off n => obtain ⟨-, rfl⟩ | ⟨-, rfl⟩ | ⟨-, rfl⟩ := execFread_cases e <;> simp [illegal]
  | acq => exact uop e .acq
  | enc => exact uop e fun h => .enc (of_decide_eq_true h)
  | xfer => exact uop e fun h => .xfer (of_decide_eq_true h)
  | xdone r =>
    cases r with
    | ok => exact uop e fun h => .xdoneOk (of_decide_eq_true h)
    | err => exact uop e fun h => .xdoneErr (of_decide_eq_true h)
  | llow => exact uop e fun h => .llow (of_decide_eq_true h)
  | lhigh => exact uop e fun h => .lhigh (of_decide_eq_true h)
  | rel => exact uop e fun h => .rel (of_decide_eq_true h)
  | dfin => exact uop e .dfin
  | status | luma | thresh | pack8 | laddr | frameinit => cases e; exact .inl rfl

end Sys2Proof.Machine
end

section
/-! SUPPORT. Requests and the flushes they lead to (R133, R135). -/

namespace Sys2Proof.Machine

/-! ### What a request leaves -/

/-- The shape SWRITE and MSTORE share: a write that is refused or illegal leaves the flag, and one that is done and asks
for a flush sets it while attached (R154, R156). -/
theorem pending_of_write {s t done : State} {bad asks : Bool} {why : RefuseReason}
    (e : (if ¬ s.present then .next (s.hostError .illegalState)
      else if bad then .next (s.refuse why) else .next done : Result) = .next t)
    (hdone : done.pending = ((asks && decide (s.life = .attached)) || s.pending)) :
    t.pending = ((decide (s.life = .attached) && !bad && asks) || s.pending) := by
  split at e
  case isTrue hp =>
    have hl : s.life ≠ .attached := fun h => hp (s.present_iff.mpr (.inl h))
    cases e
    simp [hl, State.hostError]
  case isFalse =>
    split at e <;> cases e
    case isTrue hb => simp [hb]
    case isFalse hb => simpa [hb, Bool.and_comm] using hdone

/-- After an instruction that may request, a request is outstanding if one was or the instruction made one (R26). -/
theorem pending_of_requests {i : Instr} {s t : State} (hi : requests i = 1) (e : exec i s = .next t) :
    t.pending = (s.makesRequest i || s.pending) := by
  cases i with
  | reqfl =>
    obtain ⟨hl, rfl⟩ | ⟨hl | hl, rfl⟩ | ⟨hl, rfl⟩ := execReqfl_cases e <;>
      simp [State.makesRequest, hl, State.hostError]
  | swrite off bs =>
    rw [pending_of_write (asks := true) e (State.hook_pending (s.writeSurface off.toNat bs)), Bool.and_true]
    rfl
  | mstore off v =>
    refine pending_of_write (asks := s.hookDraw) e ?_
    cases s.hookDraw with
    | false => rfl
    | true => exact State.hook_pending (s.writeSurface off.toNat [v]).drew
  | _ => cases hi

/-- Only the instructions R26 names make a request. -/
theorem requests_of_makesRequest {i : Instr} {s : State} (h : s.makesRequest i = true) : requests i = 1 := by
  cases i with
  | reqfl | swrite | mstore => rfl
  | _ => cases h

theorem toNat_makesRequest_le (i : Instr) (s : State) : (s.makesRequest i).toNat ≤ requests i := by
  cases h : s.makesRequest i with
  | false => exact Nat.zero_le _
  | true => exact (requests_of_makesRequest h).ge

/-- A request outstanding after an instruction was outstanding before or is made by it (R26). -/
theorem pending_or_makesRequest {i : Instr} {s t : State} (e : exec i s = .next t) (ht : t.pending = true) :
    s.pending = true ∨ s.makesRequest i = true := by
  cases hp : s.pending with
  | true => exact .inl rfl
  | false =>
    obtain ⟨hi, -⟩ := (onlyRequestsSetPending i s t e).1 hp ht
    rw [pending_of_requests hi e, hp, Bool.or_false] at ht
    exact .inr ht

/-- An ACQ that is taken consumes the request (R121). -/
theorem pending_of_acqTaken {i : Instr} {s t : State} (h : acqTaken i s = 1) (e : exec i s = .next t) :
    t.pending = false := by
  by_cases hc : i = .acq ∧ s.acqEnabled = true
  · obtain ⟨rfl, he⟩ := hc
    cases (exec_acq_of_enabled he).symm.trans e
    rfl
  · simp [acqTaken, hc] at h

/-! ### Flushes, bursts and requests -/

section
variable {i : Instr} {s t : State} (e : exec i s = .next t) (is : List Instr)
include e

theorem flushCount_cons : flushCount (i :: is) s = acqTaken i s + flushCount is t := by rw [flushCount, e]

theorem requestsMade_cons : requestsMade (i :: is) s = (s.makesRequest i).toNat + requestsMade is t := by
  rw [requestsMade, e]

theorem burstCount_cons (u : Bool) :
    burstCount u (i :: is) s = (s.makesRequest i && !u).toNat + burstCount (burstAfter u i s) is t := by
  rw [burstCount, e]

end

/-- The request outstanding belongs to the burst under way, before and after every instruction. -/
theorem burstAfter_of_pending {i : Instr} {u : Bool} {s t : State} (e : exec i s = .next t)
    (hu : s.pending = true → u = true) (ht : t.pending = true) : burstAfter u i s = true := by
  obtain h | h := acqTaken_eq_zero_or_one i s
  · rw [burstAfter_of_not_taken h, Bool.or_eq_true]
    exact (pending_or_makesRequest e ht).imp_left hu
  · exact absurd ht (by simp [pending_of_acqTaken h e])

/-- An ACQ taken uses up the burst under way, and only a request begins one. -/
theorem acqTaken_add_burstAfter_le {i : Instr} {u : Bool} {s : State} (hu : s.pending = true → u = true) :
    acqTaken i s + (burstAfter u i s).toNat ≤ (s.makesRequest i && !u).toNat + u.toNat := by
  obtain h | h := acqTaken_eq_zero_or_one i s
  · rw [burstAfter_of_not_taken h, h]
    cases u <;> simp
  · obtain ⟨-, -, hp⟩ := acqTaken_eq_one h
    simp [burstAfter_of_taken h, h, hu hp]

/-- Every flush uses up a burst, where the request outstanding at the start belongs to one under way (R135). -/
theorem flushCount_le_burstCount (is : List Instr) {u : Bool} {s : State} (hu : s.pending = true → u = true) :
    flushCount is s ≤ burstCount u is s + u.toNat := by
  induction is generalizing u s with
  | nil => exact Nat.zero_le _
  | cons i is ih =>
    obtain ⟨t, e⟩ := exec_answers i s
    have rest := ih (burstAfter_of_pending e hu)
    have first := acqTaken_add_burstAfter_le (i := i) hu
    rw [flushCount_cons e, burstCount_cons e]
    omega

/-- A burst begins with a request. -/
theorem burstCount_le_requestsMade (u : Bool) (is : List Instr) (s : State) :
    burstCount u is s ≤ requestsMade is s := by
  induction is generalizing u s with
  | nil => exact Nat.zero_le _
  | cons i is ih =>
    obtain ⟨t, e⟩ := exec_answers i s
    rw [burstCount_cons e, requestsMade_cons e]
    exact Nat.add_le_add (by cases u <;> simp) (ih _ t)

theorem requestsMade_le_requestCount (is : List Instr) (s : State) : requestsMade is s ≤ requestCount is := by
  induction is generalizing s with
  | nil => exact Nat.zero_le _
  | cons i is ih =>
    obtain ⟨t, e⟩ := exec_answers i s
    rw [requestsMade_cons e, requestCount, List.map_cons, List.sum_cons]
    exact Nat.add_le_add (toNat_makesRequest_le i s) (ih t)

/-- Over one instruction an ACQ taken uses up a request made (R135). -/
theorem acqTaken_add_pending_le {i : Instr} {s t : State} (e : exec i s = .next t) :
    acqTaken i s + t.pending.toNat ≤ (s.makesRequest i).toNat + s.pending.toNat := by
  have burst := acqTaken_add_burstAfter_le (i := i) (u := s.pending) (s := s) id
  have outstanding : t.pending.toNat ≤ (burstAfter s.pending i s).toNat := by
    cases ht : t.pending with
    | false => exact Nat.zero_le _
    | true => rw [burstAfter_of_pending e id ht]
  have made : (s.makesRequest i && !s.pending).toNat ≤ (s.makesRequest i).toNat := by cases s.pending <;> simp
  omega

/-- Settles O53: the burst under way at the start is the request then outstanding. -/
theorem noMoreFlushesThanRequests : Obligations.NoMoreFlushesThanRequests := by
  unfold Obligations.NoMoreFlushesThanRequests
  refine ⟨fun i s t e => ⟨acqTaken_add_pending_le e, fun h => ?_⟩, fun is s => ?_⟩
  · rw [pending_of_requests (requests_of_makesRequest h) e, h, Bool.true_or]
  · have flushes := flushCount_le_burstCount is (u := s.pending) (s := s) id
    have bursts := burstCount_le_requestsMade s.pending is s
    have requests := requestsMade_le_requestCount is s
    exact ⟨flushes, bursts, requests, by omega⟩

/-! ### Requests in a row -/

/-- A REQFL while attached (R157). -/
theorem exec_reqfl_of_attached {s : State} (hl : s.life = .attached) :
    exec .reqfl s = .next { s with
      pending := true
      replies := s.replies ++ [{ ctx := s.issuer, code := .noError, data := .nothing }] } := by
  have done : exec .reqfl s = .next (s.request.reply .noError .nothing) := by simp [exec, execReqfl, hl]
  exact done

/-- Settles O54: each further REQFL finds the device attached and `pending` set, and adds its result. -/
theorem requestsCoalesce : Obligations.RequestsCoalesce := by
  unfold Obligations.RequestsCoalesce
  intro n
  induction n with
  | zero => exact fun s hl => runInstrs_of_next (exec_reqfl_of_attached hl) []
  | succ n ih =>
    intro s hl
    refine (runInstrs_of_next (exec_reqfl_of_attached hl) _).trans ((ih _ (by exact hl)).trans ?_)
    simp [List.replicate_succ]

end Sys2Proof.Machine
end

section
/-! SUPPORT. The end of the device: no flush starts once DETACH is taken, and `Detached` is DFIN's alone (R130, R153). -/

namespace Sys2Proof.Machine

/-- From DETACHING or DETACHED no instruction leads back (R153, R160). -/
theorem life_after_detach {i : Instr} {s t : State} (hl : s.life = .detaching ∨ s.life = .detached)
    (e : exec i s = .next t) : t.life = .detaching ∨ t.life = .detached := by
  obtain d | f := exec_cases e
  · rwa [d.life]
  · cases f with
    | attach uninit => simp [uninit] at hl
    | detach attached => simp [attached] at hl
    | dfin => simp
    | _ => simpa using hl

/-- An ACQ is taken only while attached (R121). -/
theorem acqTaken_eq_zero {i : Instr} {s : State} (hl : s.life ≠ .attached) : acqTaken i s = 0 :=
  if_neg fun h => hl (s.acqEnabled_iff.mp h.2).1

/-- Settles O55: ACQ wants an attached device, and none is attached again after DETACH. -/
theorem noFlushStartsAfterDetach : Obligations.NoFlushStartsAfterDetach := by
  unfold Obligations.NoFlushStartsAfterDetach
  intro is
  induction is with
  | nil => exact fun s hl => ⟨rfl, fun t r => by cases r; exact hl⟩
  | cons i is ih =>
    intro s hl
    obtain ⟨t, e⟩ := exec_answers i s
    obtain ⟨rest, life⟩ := ih t (life_after_detach hl e)
    refine ⟨?_, fun u r => life u ((runInstrs_of_next e is).symm.trans r)⟩
    rw [flushCount_cons e, rest, acqTaken_eq_zero fun h => by simp [h] at hl]

/-- Settles O56: of the effects only DFIN's emits `Detached`. -/
theorem detachReturnsOnlyWhenTheFlushIsOver : Obligations.DetachReturnsOnlyWhenTheFlushIsOver := by
  unfold Obligations.DetachReturnsOnlyWhenTheFlushIsOver
  intro i s t e hne
  obtain same | ⟨c, failed⟩ | f := exec_trace_cases e
  · exact absurd (congrArg _ same) hne
  · exact absurd (by simp [countEvent, failed]) hne
  · cases f with
    | dfin he =>
      obtain ⟨hl, hi⟩ := s.dfinEnabled_iff.mp he
      exact ⟨rfl, hl, hi, by simp⟩
    | _ => exact absurd (by simp [countEvent, State.attachDone_trace, State.raiseError_trace]) hne

end Sys2Proof.Machine
end

section
/-! SUPPORT. What each host command answers, by lifecycle state: a legal one its effect, one in the wrong state
IllegalState (R150–R160). -/

namespace Sys2Proof.Machine

/-! ### The state each outcome leaves -/

/-- IllegalState is recorded and returned, and nothing else changes (R184). -/
theorem State.hostError_illegalState (s : State) :
    s.hostError .illegalState = { s with
      lastErr := .illegalState
      replies := s.replies ++ [{ ctx := s.issuer, code := .illegalState, data := .nothing }] } := rfl

/-- The write hook sets the request while attached, and changes nothing else (R153, R154). -/
theorem State.hook_eq (s : State) :
    s.hook = { s with pending := decide (s.life = .attached) || s.pending } := by
  unfold State.hook
  by_cases hl : s.life = .attached
  · rw [if_pos hl, decide_eq_true hl, Bool.true_or]; rfl
  · rw [if_neg hl, decide_eq_false hl, Bool.false_or]

/-- A hook that is drawn sets the request while attached; one that is not changes nothing (R156). -/
theorem State.ite_hook_eq (s : State) (drawn : Bool) :
    (if drawn then s.hook else s) =
      { s with pending := (drawn && decide (s.life = .attached)) || s.pending } := by
  cases drawn with
  | true => rw [if_pos rfl, State.hook_eq, Bool.true_and]
  | false => rfl

/-! ### Surface and frame accesses: the shape the four commands share -/

theorem State.present_eq_false {s : State} (hl : s.life = .uninit ∨ s.life = .detached) : s.present = false := by
  obtain hl | hl := hl <;> rw [State.present, hl]

/-- Without a device an access is illegal, whatever its range (R160). -/
theorem access_illegal {s : State} (hp : s.present = false) (bad : Bool) (refused legal : Result) :
    (if ¬ s.present then .next (s.hostError .illegalState) else if bad then refused else legal) =
      .next (s.hostError .illegalState) :=
  if_pos (by rw [hp]; exact Bool.false_ne_true)

/-- On a device that is there, an access that is not empty and stays inside its memory is done (R63). -/
theorem access_legal {s : State} {a n size : Nat} (hp : s.present = true) (hn : n ≠ 0) (hr : a + n ≤ size)
    (illegal refused legal : Result) :
    (if ¬ s.present then illegal else if rangeBad a n size then refused else legal) = legal := by
  rw [if_neg (not_not.mpr hp), (rangeBad_false_iff a n size).mpr ⟨hn, hr⟩, if_neg Bool.false_ne_true]

/-! ### SREAD and FREAD -/

theorem memReadList_length (m : List Host.Cell) (a n : Nat) : (memReadList m a n).length = n := by
  simp [memReadList]

/-- The bytes read stand in address order (R11). -/
theorem memReadList_getElem? (m : List Host.Cell) (a : Nat) {n k : Nat} (hk : k < n) :
    (memReadList m a n)[k]? = some (memRead m (a + k)) := by
  rw [memReadList, List.getElem?_map, List.getElem?_range hk, Option.map_some]

/-- Settles O40: the range is inside SURF, and the bytes are read one by one. -/
theorem sreadReturnsTheSurfaceBytes : Obligations.SreadReturnsTheSurfaceBytes := by
  unfold Obligations.SreadReturnsTheSurfaceBytes
  intro off n s hl hn hr
  exact ⟨_, access_legal (s.present_iff.mpr hl) (BitVec.toNat_ne.mp hn) hr _ _ _, memReadList_length _ _ _,
    fun _ => memReadList_getElem? _ _⟩

/-- Settles O41: the range is inside FRAME, whose addresses all hold a byte where the invariant holds. -/
theorem freadReturnsTheFrameBytes : Obligations.FreadReturnsTheFrameBytes := by
  unfold Obligations.FreadReturnsTheFrameBytes
  intro off n s hl hn hr
  have hp : s.present = true := s.present_iff.mpr hl
  have hr : off.toNat + n.toNat ≤ s.frameLen := s.frameLen_eq_lines ▸ hr
  refine ⟨frameReadList s.frame off.toNat n.toNat, access_legal hp (BitVec.toNat_ne.mp hn) hr _ _ _, fun h => ?_⟩
  exact frameReadList_of_isSome fun k hk => h.isSome_frameRead? hp (by omega)

/-! ### SWRITE and MSTORE -/

/-- Outside the encode window a write leaves the race sets (R64). -/
theorem State.wr_writeSurface_of_phase_ne {s : State} (hq : s.phase ≠ .enc) (off : Nat) (bs : List Byte) :
    (s.writeSurface off bs).wr = s.wr := by
  rw [State.writeSurface_wr, if_neg hq]

/-- Inside it each byte written is added at its address, and nothing else (R64). -/
theorem State.mem_raceAt_writeSurface {s : State} (hq : s.phase = .enc) (off : Nat) (bs : List Byte) (a : Nat)
    (v : Byte) :
    v ∈ raceAt (s.writeSurface off bs).wr a ↔ v ∈ raceAt s.wr a ∨ (off ≤ a ∧ bs[a - off]? = some v) := by
  rw [State.writeSurface_wr, if_pos hq, mem_raceAt_raceInsertList, or_comm]

/-- A legal SWRITE writes, requests through the hook and returns 0 (R154). -/
theorem exec_swrite_of_legal {off : Word} {bs : List Byte} {s : State} (hp : s.present = true) (hbs : bs ≠ [])
    (hr : off.toNat + bs.length ≤ s.surfSize) :
    exec (.swrite off bs) s = .next ((s.writeSurface off.toNat bs).hook.reply .noError .nothing) :=
  access_legal hp (mt List.length_eq_zero_iff.mp hbs) hr _ _ _

/-- Settles O38: a read after the write, the race sets in and outside the window, and the hook. -/
theorem swriteWritesItsBytesAndRequests : Obligations.SwriteWritesItsBytesAndRequests := by
  unfold Obligations.SwriteWritesItsBytesAndRequests
  intro off bs s hl hm hbs hr
  refine ⟨(s.writeSurface off.toNat bs).surf, (s.writeSurface off.toNat bs).wr, ?_, fun k hk => ?_, fun a ha => ?_,
    fun hq => s.wr_writeSurface_of_phase_ne hq _ _, fun hq => s.mem_raceAt_writeSurface hq _ _⟩
  · rw [exec_swrite_of_legal (s.present_iff.mpr hl) hbs hr, State.hook_eq]
    rfl
  · rw [State.writeSurface_surf, memRead_memWriteList bs _ _ _ hm, if_pos (by omega), Nat.add_sub_cancel_left]
  · rw [State.writeSurface_surf, memRead_memWriteList bs _ _ _ hm, if_neg (by omega)]

/-- A legal MSTORE writes its byte, runs the hook if that is drawn, and returns 0 (R156). -/
theorem exec_mstore_of_legal {off : Word} {v : Byte} {s : State} (hp : s.present = true)
    (hr : off.toNat < s.surfSize) :
    exec (.mstore off v) s = .next ((if s.hookDraw then (s.writeSurface off.toNat [v]).drew.hook
      else (s.writeSurface off.toNat [v]).drew).reply .noError .nothing) :=
  access_legal hp Nat.one_ne_zero hr _ _ _

/-- Settles O39: a write of one byte, raced as one byte, and the hook as it is drawn. -/
theorem mstoreStoresOneByteAndMayRequest : Obligations.MstoreStoresOneByteAndMayRequest := by
  unfold Obligations.MstoreStoresOneByteAndMayRequest
  intro off v s hl hm hr
  refine ⟨(s.writeSurface off.toNat [v]).surf, (s.writeSurface off.toNat [v]).wr, ?_,
    fun a => memRead_memWrite _ hm _ _ _, fun hq => s.wr_writeSurface_of_phase_ne hq _ _, fun hq a u => ?_⟩
  · rw [exec_mstore_of_legal (s.present_iff.mpr hl) hr, State.ite_hook_eq]
    rfl
  · rw [State.writeSurface_wr, if_pos hq, mem_raceAt, mem_raceAt, or_comm, ← Prod.mk.injEq]
    exact mem_raceInsert _ _ _ _

/-! ### ATTACH, DETACH and REQFL -/

/-- In UNINIT a geometry the check names a reason against is refused before anything else (R186, R188). -/
theorem exec_attach_of_geometryRefusal {w h : Word} {bpc : Byte} {why : RefuseReason} {s : State}
    (hl : s.life = .uninit) (hg : geometryRefusal w h bpc = some why) (pin xport : Handle) :
    exec (.attach w h bpc pin xport) s = .next { s with refused := true } := by
  rw [exec, execAttach, if_neg (not_not.mpr hl), hg]
  rfl

/-- Settles O35: ATTACH's geometry check passes only on an admitted geometry, and otherwise names a reason to refuse. -/
theorem attachRefusesOtherGeometries : Obligations.AttachRefusesOtherGeometries := by
  unfold Obligations.AttachRefusesOtherGeometries
  intro w h bpc pin xport s hl hbad
  cases hg : geometryRefusal w h bpc with
  | some why => exact exec_attach_of_geometryRefusal hl hg pin xport
  | none =>
    obtain ⟨hbpc, hok⟩ := (geometryRefusal_none_iff w h bpc).mp hg
    simp only [geometryOk, Bool.and_eq_true, decide_eq_true_eq] at hok
    have hbad := hbad.resolve_left (not_not.mpr hbpc)
    omega

/-- Settles O37: DETACH finds the device attached. -/
theorem detachDropsTheRequestAndBlocks : Obligations.DetachDropsTheRequestAndBlocks :=
  fun _ hl => if_neg (not_not.mpr hl)

theorem exec_reqfl_of_uninit {s : State} (hl : s.life = .uninit) :
    exec .reqfl s = .next (s.hostError .illegalState) := by
  rw [exec, execReqfl, hl]

/-- After DETACH a REQFL returns 0 and does nothing (R157). -/
theorem exec_reqfl_after_detach {s : State} (hl : s.life = .detaching ∨ s.life = .detached) :
    exec .reqfl s = .next (s.reply .noError .nothing) := by
  rw [exec, execReqfl]
  obtain hl | hl := hl <;> rw [hl]

/-- Settles O42: by the lifecycle state. -/
theorem reqflRequestsOrDoesNothing : Obligations.ReqflRequestsOrDoesNothing :=
  fun _ => ⟨exec_reqfl_of_attached, exec_reqfl_after_detach, exec_reqfl_of_uninit⟩

/-! ### The wrong state -/

/-- Settles O44: ATTACH and DETACH check the lifecycle state first, the accesses whether the device is there (R160). -/
theorem aCommandInTheWrongStateIsIllegalState : Obligations.ACommandInTheWrongStateIsIllegalState := by
  unfold Obligations.ACommandInTheWrongStateIsIllegalState
  intro i s hw
  rw [← s.hostError_illegalState]
  obtain ⟨⟨w, h, bpc, pin, xport, rfl⟩, hl⟩ | ⟨rfl, hl⟩ | ⟨hi, hl⟩ | ⟨rfl, hl⟩ := hw
  · exact if_pos hl
  · exact if_pos hl
  · have hp : s.present = false := State.present_eq_false hl
    obtain ⟨off, bs, rfl⟩ | ⟨off, n, rfl⟩ | ⟨off, v, rfl⟩ | ⟨off, n, rfl⟩ := hi <;> exact access_illegal hp _ _ _
  · exact exec_reqfl_of_uninit hl

end Sys2Proof.Machine
end

section
/-! SUPPORT. Errors and isolation: a failed ATTACH, a transport failure, that nothing stops the machine, and that
instances share nothing (R180–R204). -/

namespace Sys2Proof.Machine

/-! ### A failed ATTACH -/

/-- In UNINIT an admitted geometry passes to the handles and then to the allocator (R188). -/
theorem exec_attach_of_geometryOk {w h : Word} {s : State} (hl : s.life = .uninit)
    (hg : geometryOk w.toNat h.toNat = true) (pin xport : Handle) :
    exec (.attach w h 8 pin xport) s =
      if ¬ (pin.valid && xport.valid) then .next (s.attachFailed .configurationError)
      else if s.allocDraw then .next (s.drew.attachDone w h)
      else .next (s.drew.attachFailed .allocationFailure) := by
  rw [exec, execAttach, if_neg (not_not.mpr hl), (geometryRefusal_none_iff w h 8).mpr ⟨rfl, hg⟩]

/-- Settles O36: the handles are checked before the allocator is asked, and either failure is only reported. -/
theorem aFailedAttachReportsAndHoldsNothing : Obligations.AFailedAttachReportsAndHoldsNothing := by
  unfold Obligations.AFailedAttachReportsAndHoldsNothing
  refine ⟨fun w h pin xport s hl hg hinvalid => ?_, fun w h pin xport s hl hg hpin hxport ha => ?_⟩ <;>
    rw [exec_attach_of_geometryOk hl hg]
  · have hv : ¬ (pin.valid && xport.valid) := by obtain hp | hx := hinvalid <;> simp [*]
    exact if_pos hv
  · simp only [hpin, hxport, ha]
    rfl

/-! ### Transport failures -/

/-- The error count is one more, up to 0xFFFFFFFF (R30, R183). -/
theorem saturatingSucc_eq_min (c : Word) :
    saturatingSucc c = BitVec.ofNat 32 (min (c.toNat + 1) 0xFFFFFFFF) := by
  unfold saturatingSucc
  split <;> bv_omega

/-- Settles O28: XDONE's effect, with the saturating count written as a minimum. -/
theorem xdoneErrRecordsAFailureAndSkipsTheLatch : Obligations.XdoneErrRecordsAFailureAndSkipsTheLatch := by
  unfold Obligations.XdoneErrRecordsAFailureAndSkipsTheLatch
  intro s hq
  rw [exec_xdoneErr_of_phase hq, saturatingSucc_eq_min, List.append_assoc, List.singleton_append]

/-- Settles O57: of the effects only XDONE Err's emits either event, and it emits both. -/
theorem oneLogPerTransportFailure : Obligations.OneLogPerTransportFailure := by
  unfold Obligations.OneLogPerTransportFailure
  intro i s t e
  obtain same | ⟨c, failed⟩ | f := exec_trace_cases e
  · rw [same]
  · simp [countEvent, failed]
  · cases f with
    | xdoneErr => simp +arith [countEvent, State.raiseError_trace]
    | _ => simp [countEvent, State.attachDone_trace]

/-! ### Nothing stops the machine -/

/-- Settles O46: every arm of `exec` ends in a next state on each of its branches. -/
theorem everyInstructionAnswersANextState : Obligations.EveryInstructionAnswersANextState := exec_answers

/-! ### Several instances -/

/-- The fleet has a next state exactly where instance `k` exists and has one, which is put in its place (R200). -/
theorem fleetStep_eq_next_iff (fleet fleet' : List State) (k : Nat) :
    fleetStep fleet k = .next fleet' ↔
      ∃ s t, fleet[k]? = some s ∧ step s = .next t ∧ fleet' = fleet.set k t := by
  unfold fleetStep
  cases fleet[k]? with
  | none => simp
  | some s => cases hs : step s <;> simp [hs, eq_comm]

/-- Settles O60: the fleet's step replaces entry `k` alone, by what that entry's own step answers. -/
theorem instancesShareNothing : Obligations.InstancesShareNothing := by
  unfold Obligations.InstancesShareNothing
  refine ⟨fun fleet fleet' k h => ?_, fun fleet k s t hk hs =>
    ⟨fleet.set k t, (fleetStep_eq_next_iff ..).mpr ⟨s, t, hk, hs, rfl⟩⟩⟩
  obtain ⟨s, t, hk, hs, rfl⟩ := (fleetStep_eq_next_iff ..).mp h
  obtain ⟨hlt, -⟩ := List.getElem?_eq_some_iff.mp hk
  exact ⟨⟨s, t, hk, hs, List.getElem?_set_self hlt⟩, List.length_set, fun j hj => List.getElem?_set_ne hj.symm⟩

end Sys2Proof.Machine
end

section
/-! SUPPORT. The block before its ATTACH: the sequencer has no step, and whatever else is issued leaves the device and
the trace alone (R40, R160, R211). -/

namespace Sys2Proof.Machine

/-! ### The sequencer -/

/-- Both steps of P_IDLE want a device that was attached (R121, R130). -/
theorem State.Inv.ownStep_of_uninit {s : State} (h : s.Inv) (hl : s.life = .uninit) : s.ownStep = none := by
  have hq : s.phase = .idle := h.idle_of_uninit hl
  have hacq : ¬ s.acqEnabled := by simp [s.acqEnabled_iff, hl]
  have hdfin : ¬ s.dfinEnabled := by simp [s.dfinEnabled_iff, hl]
  simp only [State.ownStep, hq, if_neg hacq, if_neg hdfin]

/-- An enabled step would be the sequencer's own, and it has none. -/
theorem State.Inv.enabled_of_uninit {i : Instr} {s : State} (h : s.Inv) (hl : s.life = .uninit) (hc : i.cls = .uop) :
    s.enabled i = false := by
  have hw : s.phase ≠ .wait := by simp [h.idle_of_uninit hl]
  refine Bool.eq_false_iff.mpr fun he => ?_
  cases (h.ownStep_of_uninit hl).symm.trans (State.ownStep_of_enabled hw hc he)

/-! ### The other instructions -/

/-- In UNINIT a sequencer step is not taken, a host command but ATTACH and STATUS is IllegalState, and STATUS and the
datapath functions only return a value (R120, R158, R160). -/
theorem exec_before_attach {i : Instr} {s : State} (h : s.Inv) (hl : s.life = .uninit)
    (hi : ∀ w h bpc pin xport, i ≠ .attach w h bpc pin xport) :
    ∃ t, exec i s = .next t ∧ SameDevice s t ∧ t.trace = s.trace := by
  have hp : s.present = false := State.present_eq_false (.inl hl)
  have illegal : SameDevice s (s.hostError .illegalState) ∧ (s.hostError .illegalState).trace = s.trace :=
    ⟨.hostError s (by decide), rfl⟩
  have untaken (hc : i.cls = .uop) : exec i s = .next s :=
    anUnenabledStepIsNotTaken i s hc (h.enabled_of_uninit hl hc)
  cases i with
  | attach w h bpc pin xport => exact absurd rfl (hi w h bpc pin xport)
  | detach => exact ⟨_, if_pos (by simp [hl]), illegal⟩
  | swrite | sread | mstore | fread => exact ⟨_, access_illegal hp _ _ _, illegal⟩
  | reqfl => exact ⟨_, exec_reqfl_of_uninit hl, illegal⟩
  | status => exact ⟨_, rfl, .reply s _ _, rfl⟩
  | acq | enc | xfer | xdone | llow | lhigh | rel | dfin => exact ⟨_, untaken rfl, .refl s, rfl⟩
  | luma | thresh | pack8 | laddr | frameinit => exact ⟨_, rfl, .fnOut s _, rfl⟩

/-- Settles O2: reset is an UNINIT state of the invariant, where the sequencer has no step and no instruction but
ATTACH changes the device, which is absent. -/
theorem nothingRunsAfterResetUntilAttach : Obligations.NothingRunsAfterResetUntilAttach := by
  unfold Obligations.NothingRunsAfterResetUntilAttach
  have hreset : State.reset.Inv := resetMeetsTheBlockInvariant
  refine ⟨fun i => hreset.enabled_of_uninit rfl,
    step_of_no_ownStep (State.fetch_eq_ownTurn (.inl rfl)) (hreset.ownStep_of_uninit rfl),
    fun s i h => h.enabled_of_uninit, fun s t i h hl hi e => ?_⟩
  obtain ⟨t', e', d, htrace⟩ := exec_before_attach h hl hi
  cases e'.symm.trans e
  obtain ⟨hphase, hpending, hsurf, hframe, -, -, hlatch⟩ := h.absent (State.present_eq_false (.inl hl))
  exact ⟨d.life.trans hl, d.phase.trans hphase, d.pending.trans hpending, d.latch.trans hlatch, d.surf.trans hsurf,
    d.frame.trans hframe, htrace⟩

end Sys2Proof.Machine
end
